-- ==== Sys2Proof/Word.lean ====
section
/-! DEFINITION. The word types of RLWE-CORE: bus words, bytes, stored coefficients and polynomial register numbers. -/

namespace Sys2Proof

/-- A 32-bit bus word (20_memory R72). -/
abbrev Word := BitVec 32

/-- A byte of a word as a byte-addressed host sees it (20_memory R74). -/
abbrev Byte := BitVec 8

/-- A stored coefficient: `COEF_W` = 14 bits, unsigned (00_scope R7, 10_state R31). -/
abbrev Coef := BitVec 14

/-- A polynomial register number, 0 to 7 (30_encoding R101). -/
abbrev PReg := Fin 8

/-- A coefficient index of a polynomial register, 0 to 511 (10_state R31). -/
abbrev Index := Fin 512

/-- One polynomial register: `NMAX` = 512 coefficients (10_state R31). -/
abbrev Poly := Vector Coef 512

end Sys2Proof
end

