-- ==== Sys2Proof/Config.lean ====
section
/-! DEFINITION. What an implementation fixes (00_scope R7) and the free values the spec leaves open (93 I2, I3, I4, I6). -/

namespace Sys2Proof

/-- The two parameter sets (00_scope R3): `n256` is PSET 0 (N = 256, q = 7681), `n512` is PSET 1 (N = 512, q = 12289).
Codes 2 and 3 never become the current set (10_state R37), so they have no constructor (DESIGN CHOICE, notes/assumptions/12). -/
inductive ParamSet where
  | n256
  | n512
  deriving DecidableEq, Repr, Inhabited

/-- A Knuth-Yao probability matrix (42 R181): `KY_COLS` = `cols`, `KY_ROWS` = the number of `rows`, and row `r` lists
`PMAT[r][0]`, `PMAT[r][1]`, … as truth values. -/
structure KyMatrix where
  cols : Nat
  rows : List (List Bool)
  deriving DecidableEq, Repr, Inhabited

/-- The parameters of 00_scope R7: `PSI[p]`, the Knuth-Yao matrix of each parameter set, and `BASE_ADDR`. A machine is built
with one of these and no step writes it (00_scope R8; DESIGN CHOICE, notes/assumptions/6). -/
structure Config where
  psi0 : Nat
  psi1 : Nat
  ky0 : KyMatrix
  ky1 : KyMatrix
  baseAddr : Nat
  deriving DecidableEq, Repr, Inhabited

/-- `PMAT`, `KY_ROWS` and `KY_COLS` of each parameter set: OPEN (42 R181, 92 D26), so an opaque constant. -/
opaque Config.kyMatrix : ParamSet → KyMatrix

/-- `BASE_ADDR` divided by 0x8000: OPEN (20_memory R70, 92 D3), so an opaque constant. -/
opaque Config.baseIndex : Nat

/-- The `n`th word the random port delivers after those it holds ready: a free draw under no law (42 R183, 93 I3;
DESIGN CHOICE, notes/assumptions/4). -/
opaque Config.rngWord : Nat → Word

/-- The value the `n`th unspecified read returns: a free draw (20_memory R80, 93 I2; DESIGN CHOICE, notes/assumptions/5). -/
opaque Config.busyRead : Nat → Word

/-- The configuration of this hardware: the default roots of 41_ntt R151; the OPEN parameters are the opaque constants. -/
def Config.hardware : Config :=
  { psi0 := 7146
    psi1 := 10302
    ky0 := Config.kyMatrix .n256
    ky1 := Config.kyMatrix .n512
    baseAddr := 0x8000 * Config.baseIndex }

end Sys2Proof
end

