-- ==== Sys2Proof/Machine/Params.lean ====
section
/-! DEFINITION. The fixed values of each parameter set (00_scope R3, R7), the lookups into the configuration, and the
arithmetic helpers the parameters' constraints and the commands share. -/

namespace Sys2Proof

/-- The 2-bit code of a parameter set (00_scope R3). -/
def ParamSet.code : ParamSet → BitVec 2
  | .n256 => 0
  | .n512 => 1

/-- The parameter set a code selects; codes 2 and 3 select none (00_scope R3). -/
def ParamSet.ofCode (c : BitVec 2) : Option ParamSet :=
  match c.toNat with
  | 0 => some .n256
  | 1 => some .n512
  | _ => none

/-- N, the number of coefficients (00_scope R3). -/
def ParamSet.n : ParamSet → Nat
  | .n256 => 256
  | .n512 => 512

/-- q, the modulus (00_scope R3). -/
def ParamSet.q : ParamSet → Nat
  | .n256 => 7681
  | .n512 => 12289

/-- log2 N (00_scope R3). -/
def ParamSet.logN : ParamSet → Nat
  | .n256 => 8
  | .n512 => 9

/-- `NINV` = N^-1 mod q (00_scope R7, 41_ntt R151). -/
def ParamSet.nInv : ParamSet → Nat
  | .n256 => 7651
  | .n512 => 12265

/-- `PSI[p]` (41_ntt R151). -/
def Config.psi (c : Config) : ParamSet → Nat
  | .n256 => c.psi0
  | .n512 => c.psi1

/-- The Knuth-Yao matrix of a parameter set (42 R181). -/
def Config.ky (c : Config) : ParamSet → KyMatrix
  | .n256 => c.ky0
  | .n512 => c.ky1

/-- ψ^-1 mod q, as ψ^(2N-1): the inverse of ψ because ψ has order 2N (41_ntt R151; DEDUCED, notes/assumptions/7). -/
def Config.psiInv (c : Config) (p : ParamSet) : Nat :=
  c.psi p ^ (2 * p.n - 1) % p.q

/-- `KY_ROWS` (42 R181). -/
def KyMatrix.rowCount (m : KyMatrix) : Nat :=
  m.rows.length

/-- `PMAT[r][c]` (42 R181). -/
def KyMatrix.bit (m : KyMatrix) (r c : Nat) : Bool :=
  (m.rows.getD r []).getD c false

/-- The sum `f 0 + f 1 + … + f (n-1)`. -/
def sumTo : Nat → (Nat → Nat) → Nat
  | 0, _ => 0
  | n + 1, f => sumTo n f + f n

/-- `Σ_r Σ_c PMAT[r][c]·2^-(c+1)`, scaled by 2^KY_COLS so that it is a whole number (42 R181). -/
def KyMatrix.weight (m : KyMatrix) : Nat :=
  sumTo m.rowCount fun r => sumTo m.cols fun c => (m.bit r c).toNat * 2 ^ (m.cols - 1 - c)

end Sys2Proof
end

