-- ==== Sys2Proof/Syntax.lean ====
section
/-! DEFINITION. The commands of RLWE-CORE (30_encoding R103): one constructor of `Instr` for each row of
spec/opcode_table.json, their formats (R102), and a line of assembly as the assembler reads it (R110). -/

namespace Sys2Proof

/-- The nine commands (30_encoding R103). Register fields are 3-bit numbers (R101); a field that the command's format does not
use is no argument of its constructor (R102). -/
inductive Instr where
  | reduce
  | sample1
  | nttFwd (rd ra : PReg)
  | nttInv (rd ra : PReg)
  | rearrange (rd ra : PReg)
  | padd (rd ra rb : PReg)
  | psub (rd ra rb : PReg)
  | pmul (rd ra rb : PReg)
  | sample (rd : PReg)
  deriving DecidableEq, Repr

/-- The names of the nine rows of 30_encoding R103. -/
inductive Mnemonic where
  | reduce
  | sample1
  | nttFwd
  | nttInv
  | rearrange
  | padd
  | psub
  | pmul
  | sample
  deriving DecidableEq, Repr

/-- The four formats (30_encoding R102). -/
inductive Format where
  | z
  | d
  | da
  | dab
  deriving DecidableEq, Repr

/-- The format of each row (30_encoding R102). -/
def Mnemonic.format : Mnemonic → Format
  | .reduce => .z
  | .sample1 => .z
  | .nttFwd => .da
  | .nttInv => .da
  | .rearrange => .da
  | .padd => .dab
  | .psub => .dab
  | .pmul => .dab
  | .sample => .d

/-- How many register operands a format's assembly line has (30_encoding R110). -/
def Format.operandCount : Format → Nat
  | .z => 0
  | .d => 1
  | .da => 2
  | .dab => 3

/-- The row a command belongs to. -/
def Instr.mnemonic : Instr → Mnemonic
  | .reduce => .reduce
  | .sample1 => .sample1
  | .nttFwd _ _ => .nttFwd
  | .nttInv _ _ => .nttInv
  | .rearrange _ _ => .rearrange
  | .padd _ _ _ => .padd
  | .psub _ _ _ => .psub
  | .pmul _ _ _ => .pmul
  | .sample _ => .sample

/-- A line of command assembly once its words are told apart (30_encoding R110): a mnemonic and the numbers of its register
operands, in the order written. A number above 7 or a wrong number of operands can be written; WellFormed refuses them. -/
structure AsmLine where
  mnemonic : Mnemonic
  operands : List Nat
  deriving DecidableEq, Repr

end Sys2Proof
end

