-- ==== Sys2Proof/WellFormed.lean ====
section
/-! DEFINITION. The checks on what a user of the model writes: a line of assembly (30_encoding R110) and a configuration
(41_ntt R151, 42 R181, 20_memory R70). An `Instr` needs no check: its register numbers are below 8 by their type. -/

namespace Sys2Proof

/-- "The assembler refuses a register number above 7 and a wrong operand count" (30_encoding R110). -/
abbrev AsmLine.WellFormed (l : AsmLine) : Prop :=
  l.operands.length = l.mnemonic.format.operandCount ∧ ∀ r ∈ l.operands, r < 8

/-- `PSI[p]` has multiplicative order exactly 2N mod q (41_ntt R151). -/
def ParamSet.PsiOk (p : ParamSet) (psi : Nat) : Prop :=
  psi ^ (2 * p.n) % p.q = 1 ∧ ∀ k < 2 * p.n, 0 < k → psi ^ k % p.q ≠ 1

/-- The constraints on a Knuth-Yao matrix (42 R181): at least one row and one column, every row as long as there are columns,
KY_ROWS ≤ q, and weights that sum to at most 1. -/
def ParamSet.KyOk (p : ParamSet) (m : KyMatrix) : Prop :=
  1 ≤ m.rowCount ∧ 1 ≤ m.cols ∧ (∀ row ∈ m.rows, row.length = m.cols) ∧ m.rowCount ≤ p.q ∧ m.weight ≤ 2 ^ m.cols

/-- `BASE_ADDR` is a multiple of 0x8000 (20_memory R70). -/
def Config.BaseOk (c : Config) : Prop :=
  c.baseAddr % 0x8000 = 0

/-- A configuration that the spec allows: "Constraints a model must check on the configuration" (42 R181), with those of 41_ntt
R151 and 20_memory R70. -/
structure Config.Valid (c : Config) : Prop where
  psi0 : ParamSet.PsiOk .n256 c.psi0
  psi1 : ParamSet.PsiOk .n512 c.psi1
  ky0 : ParamSet.KyOk .n256 c.ky0
  ky1 : ParamSet.KyOk .n512 c.ky1
  base : c.BaseOk

end Sys2Proof
end

