-- ==== Sys2Proof/Decode.lean ====
section
/-! DEFINITION. Decoding a command word (30_encoding R100 to R105, R108), the encoder, and the little-endian bytes of a word
(20_memory R74). -/

namespace Sys2Proof

/-- One row of the opcode map (30_encoding R103). -/
structure Row where
  mnemonic : Mnemonic
  matchBits : Word
  mask : Word
  deriving DecidableEq, Repr

/-- The opcode map, in the table's order (30_encoding R103). -/
def opcodeRows : List Row :=
  [ ⟨.reduce, 0x00000001, 0xFFFFFFFF⟩,
    ⟨.sample1, 0x00000002, 0xFFFFFFFF⟩,
    ⟨.nttFwd, 0x00000010, 0xFFFF88FF⟩,
    ⟨.nttInv, 0x00000011, 0xFFFF88FF⟩,
    ⟨.rearrange, 0x00000012, 0xFFFF88FF⟩,
    ⟨.padd, 0x00000020, 0xFFF888FF⟩,
    ⟨.psub, 0x00000021, 0xFFF888FF⟩,
    ⟨.pmul, 0x00000022, 0xFFF888FF⟩,
    ⟨.sample, 0x00000030, 0xFFFFF8FF⟩ ]

/-- A word selects a row when `w & mask = match` (30_encoding R103). -/
def Row.selects (r : Row) (w : Word) : Bool :=
  w &&& r.mask == r.matchBits

/-- Why bits are no command (30_encoding R105), each by name; the block itself records only ILLEGAL. -/
inductive Illegal where
  /-- bits 7:0 hold an OPC that is in no row -/
  | unassignedOpcode
  /-- one of bits 11, 15 and 31:19 is set -/
  | reservedBits
  /-- RD, RA or RB is not 0 in a format that does not use it -/
  | unusedField
  /-- fewer than four bytes were given: every command is one 32-bit word (R108) -/
  | truncated
  deriving DecidableEq, Repr

/-- The OPC field, bits 7:0 (30_encoding R100). -/
def opcField (w : Word) : BitVec 8 :=
  w.extractLsb' 0 8

/-- The RD field, bits 10:8 (30_encoding R100). -/
def rdField (w : Word) : PReg :=
  (w.extractLsb' 8 3).toFin

/-- The RA field, bits 14:12 (30_encoding R100). -/
def raField (w : Word) : PReg :=
  (w.extractLsb' 12 3).toFin

/-- The RB field, bits 18:16 (30_encoding R100). -/
def rbField (w : Word) : PReg :=
  (w.extractLsb' 16 3).toFin

/-- The command of a row with the given register fields; a format takes the fields it uses (30_encoding R102). -/
def Mnemonic.command (m : Mnemonic) (rd ra rb : PReg) : Instr :=
  match m with
  | .reduce => .reduce
  | .sample1 => .sample1
  | .nttFwd => .nttFwd rd ra
  | .nttInv => .nttInv rd ra
  | .rearrange => .rearrange rd ra
  | .padd => .padd rd ra rb
  | .psub => .psub rd ra rb
  | .pmul => .pmul rd ra rb
  | .sample => .sample rd

/-- Which kind of illegal command a word that selects no row is (30_encoding R105). -/
def illegalReason (w : Word) : Illegal :=
  if opcodeRows.all fun r => opcField w != r.matchBits.extractLsb' 0 8 then .unassignedOpcode
  else if w &&& 0xFFF88800 != 0 then .reservedBits
  else .unusedField

/-- The decoder (30_encoding R104): the first row that the word selects, else ILLEGAL. Total on words. -/
def decode (w : Word) : Except Illegal Instr :=
  match opcodeRows.find? fun r => r.selects w with
  | some r => .ok (r.mnemonic.command (rdField w) (raField w) (rbField w))
  | none => .error (illegalReason w)

/-- The little-endian bytes of a word, the first at the lowest address (20_memory R74). -/
def wordBytes (w : Word) : List Byte :=
  [w.extractLsb' 0 8, w.extractLsb' 8 8, w.extractLsb' 16 8, w.extractLsb' 24 8]

/-- The word whose little-endian bytes are given (20_memory R74). -/
def wordOfBytes (b0 b1 b2 b3 : Byte) : Word :=
  b3 ++ b2 ++ b1 ++ b0

/-- Decoding a command from bytes as they lie in a byte-addressed host's memory: one 32-bit word, and the bytes after it.
Total on any bytes. -/
def decodeBytes : List Byte → Except Illegal (Instr × List Byte)
  | b0 :: b1 :: b2 :: b3 :: rest =>
    match decode (wordOfBytes b0 b1 b2 b3) with
    | .ok i => .ok (i, rest)
    | .error e => .error e
  | _ => .error .truncated

/-- A command word put together from its fields (30_encoding R100): reserved bits are 0. -/
def encodeFields (rb ra rd : PReg) (opc : BitVec 8) : Word :=
  0#13 ++ BitVec.ofFin (w := 3) rb ++ 0#1 ++ BitVec.ofFin (w := 3) ra ++ 0#1 ++ BitVec.ofFin (w := 3) rd ++ opc

/-- The encoder (30_encoding R100 to R103): the OPC of the command's row, its register fields, 0 elsewhere. -/
def encode : Instr → Word
  | .reduce => encodeFields 0 0 0 0x01
  | .sample1 => encodeFields 0 0 0 0x02
  | .nttFwd rd ra => encodeFields 0 ra rd 0x10
  | .nttInv rd ra => encodeFields 0 ra rd 0x11
  | .rearrange rd ra => encodeFields 0 ra rd 0x12
  | .padd rd ra rb => encodeFields rb ra rd 0x20
  | .psub rd ra rb => encodeFields rb ra rd 0x21
  | .pmul rd ra rb => encodeFields rb ra rd 0x22
  | .sample rd => encodeFields 0 0 rd 0x30

/-- The command word an opcode-table number stands for: bit 0 is the least significant bit of the (only) word, and the bits
from `nbits` on are 0. -/
def tableWord (nbits w : Nat) : Word :=
  BitVec.ofNat 32 (w % 2 ^ nbits)

/-- What the decoder reads from an instruction whose bits are `w`, numbered as spec/opcode_table.json numbers them: the word
is laid out as its little-endian bytes and decoded from them. -/
def decodeTableWord (nbits w : Nat) : Option Instr :=
  match decodeBytes (wordBytes (tableWord nbits w)) with
  | .ok (i, _) => some i
  | .error _ => none

end Sys2Proof
end

