-- ==== Sys2Proof/Machine/State.lean ====
section
/-! DEFINITION. The state of the machine (10_state R54), what the host and the platform still have to do to it, and the state
after reset (70 R270). -/

namespace Sys2Proof.Machine

/-- The error codes of STATUS.ERR (60_exceptions R240). Codes 6 to 15 are never written by the block and have no constructor
(93 I9; DESIGN CHOICE, notes/assumptions/12). -/
inductive ErrCode where
  | none
  | illegal
  | config
  | state
  | busy
  | kyExhausted
  deriving DecidableEq, Repr

/-- The size of a host access: 8, 16, 32 or 64 bits (20_memory R72, R73). -/
inductive AccessSize where
  | byte
  | half
  | word
  | dword
  deriving DecidableEq, Repr

/-- What the HOST agent does in one of its turns (00_scope R12, R15). -/
inductive HostOp where
  /-- `MemRead(addr, size)`; the value read goes to `reads` -/
  | read (addr : Nat) (size : AccessSize)
  /-- `MemWrite(addr, size, v)` -/
  | write (addr : Nat) (size : AccessSize) (v : Word)
  /-- one poll of `wait`: read STATUS, and go on when BUSY is 0 (30_encoding R113) -/
  | wait
  deriving DecidableEq, Repr

/-- Who moves next (00_scope R15): the HOST, the ENGINE, or the platform, which resets the block (70 R270). -/
inductive Turn where
  | host
  | engine
  | reset
  deriving DecidableEq, Repr

/-- The random port (42 R183): the words it has ready, oldest first, and how many words the block has drawn from it so far.
When none is ready the next word is the free value `Config.rngWord drawn` (DESIGN CHOICE, notes/assumptions/4). -/
structure RngPort where
  queue : List Word
  drawn : Nat
  deriving DecidableEq, Repr

/-- The whole machine. From `pset` to `pend` it is the block's architectural state (10_state R54); `config` is what the block
was built with (00_scope R7, R8); the rest is the environment it runs in: the random port, the host's pending transactions,
whose turn it is, and what the host has read. -/
structure State where
  /-- the parameters of 00_scope R7 -/
  config : Config
  /-- CFG.PSET -/
  pset : ParamSet
  /-- STATUS.CONFIGURED -/
  configured : Bool
  /-- STATUS.BUSY -/
  busy : Bool
  /-- STATUS.DONE -/
  done : Bool
  /-- STATUS.ERR -/
  err : ErrCode
  /-- CTRL.IRQ_EN -/
  irqEn : Bool
  /-- X_LO -/
  xLo : Word
  /-- X_HI -/
  xHi : Word
  /-- RESULT -/
  result : Word
  /-- P0 to P7 -/
  polys : Vector Poly 8
  /-- KY_BUF -/
  kyBuf : Word
  /-- KY_VALID, 0 to 32 -/
  kyValid : Fin 33
  /-- PEND -/
  pend : Word
  /-- the random port -/
  rng : RngPort
  /-- how many unspecified reads were answered; numbers their free values -/
  freeReads : Nat
  /-- the host's transactions still to come, in program order -/
  host : List HostOp
  /-- whose turn comes, in order -/
  turns : List Turn
  /-- the values the host's reads returned, in program order -/
  reads : List Word
  deriving DecidableEq, Repr

/-- Why a step ends with no next state although the access or the word was not refused. -/
inductive Fault where
  /-- A host access that is not a 32-bit word-aligned access (20_memory R73, 93 I1), raised by the HOST's turn. Safe: the block
  is unchanged and the spec asks a model to treat it as a fault of the host; the model stops where a host would go on. -/
  | busError
  /-- The ENGINE's turn with BUSY = 1 and a PEND that decodes to ILLEGAL, "never ILLEGAL" by 30_encoding R107. Safe: no run
  reaches such a state (DEDUCED, notes/assumptions/9). -/
  | pendingIllegal
  deriving DecidableEq, Repr

/-- Why a step has no meaning in the model. -/
inductive Refusal where
  /-- A command without a meaning yet, named as spec/opcode_table.json names it; raised by `exec` alone. Safe. -/
  | notModelled (mnemonic : String)
  /-- A host access to an address outside the block's window, raised by the HOST's turn: "not a block transition; the
  platform's business" (93 I7, 20_memory R70). Safe: the model stops where the platform decides. -/
  | outsideWindow
  deriving DecidableEq, Repr

/-- The reset values of 10_state R54 for a block built with `c`, in an environment that has nothing to do. -/
def State.resetWith (c : Config) : State :=
  { config := c
    pset := .n256
    configured := false
    busy := false
    done := false
    err := .none
    irqEn := false
    xLo := 0
    xHi := 0
    result := 0
    polys := Vector.replicate 8 (Vector.replicate 512 0)
    kyBuf := 0
    kyValid := 0
    pend := 0
    rng := { queue := [], drawn := 0 }
    freeReads := 0
    host := []
    turns := []
    reads := [] }

/-- This hardware right after reset (70 R270, 10_state R54). -/
def State.reset : State :=
  State.resetWith Config.hardware

end Sys2Proof.Machine
end

