-- ==== Sys2Proof/Machine/Ops.lean ====
section
/-! DEFINITION. The operations the commands and the bus share: the modular reduction (40 R130), raising and clearing an error
(60_exceptions R244, R251), reset (70 R270), and reading and writing polynomial registers (00_scope R11). -/

namespace Sys2Proof.Machine

/-- `reduce_q(x)`, by truncated division "compensated by adding q" (40_modular_reduce R130). -/
def reduceQ (q : Nat) (x : Int) : Nat :=
  let t := Int.tdiv x q
  let r := x - q * t
  (if r < 0 then r + q else r).toNat

/-- `raise Error(code)`: the latch (60_exceptions R244). This is all there is to taking an exception: no trap entry, no saved
state, no change of mode or control (R250). -/
def State.raise (code : ErrCode) (s : State) : State :=
  if s.err = .none then { s with err := code } else s

/-- The host's recovery from an error, the STATUS write of 10_state R40: bit 1 clears DONE, bit 3 clears ERR
(60_exceptions R251). -/
def State.clearStatus (w : Word) (s : State) : State :=
  { s with
    done := if w.getLsbD 1 then false else s.done
    err := if w.getLsbD 3 then .none else s.err }

/-- A reset of the block (70 R270): every item of 10_state R54 takes its reset value. The configuration the block is built with
and the environment are no such items and stay (DEDUCED, notes/assumptions/13). -/
def State.resetBlock (s : State) : State :=
  { State.resetWith s.config with
    rng := s.rng
    freeReads := s.freeReads
    host := s.host
    turns := s.turns
    reads := s.reads }

/-- The modulus of the current parameter set. -/
def State.q (s : State) : Nat :=
  s.pset.q

/-- The number of coefficients of the current parameter set. -/
def State.n (s : State) : Nat :=
  s.pset.n

/-- Coefficient `i` of a polynomial register as a number (00_scope R11); there is none from 512 on. -/
def Poly.coef (a : Poly) (i : Nat) : Nat :=
  if h : i < 512 then a[i].toNat else 0

/-- `P[k][i]` as a number (00_scope R11). -/
def State.coef (s : State) (k : PReg) (i : Nat) : Nat :=
  Poly.coef s.polys[k] i

/-- The polynomial register with coefficient `f i` at `i`, built from a list so that it computes. -/
def Poly.tabulate (f : Nat → Nat) : Poly :=
  Vector.mk (Array.mk ((List.range 512).map fun i => BitVec.ofNat 14 (f i))) (by simp)

/-- `P[k][0..n-1] <- f 0, …, f (n-1)`: the entries from `n` on stay as they are (43 R223, 41 R160). -/
def Poly.setLanes (a : Poly) (n : Nat) (f : Nat → Nat) : Poly :=
  Poly.tabulate fun i => if i < n then f i else Poly.coef a i

/-- One polynomial register is written, the other seven stay. -/
def State.setPoly (s : State) (k : PReg) (a : Poly) : State :=
  { s with polys := s.polys.set k a }

/-- A command's write of a ring element to P[rd]: the N lanes of the current parameter set (43 R223). -/
def State.setRing (s : State) (rd : PReg) (f : Nat → Nat) : State :=
  s.setPoly rd (Poly.setLanes s.polys[rd] s.n f)

end Sys2Proof.Machine
end

