-- ==== Sys2Proof/Machine/Operands.lean ====
section
/-! DEFINITION. Where the commands' operands come from (30_encoding R101, R109): the scalar X, the lanes of a source polynomial
register, and the random bits (42 R182 to R184). -/

namespace Sys2Proof.Machine

/-- `X = sext_64({X_HI, X_LO})` (40 R132, 10_state R42). -/
def State.xOperand (s : State) : Int :=
  (s.xHi ++ s.xLo).toInt

/-- `a <- P[ra][0..N-1]`: a command's source, read in full before anything is written (30_encoding R107). -/
def State.source (s : State) (ra : PReg) : Nat → Nat :=
  s.coef ra

/-- What the sampler reads and writes: KY_BUF, KY_VALID (10_state R49) and the random port. -/
structure BitStream where
  buf : Word
  valid : Fin 33
  rng : RngPort
  deriving DecidableEq, Repr

/-- The bit stream of a state. -/
def State.bits (s : State) : BitStream :=
  { buf := s.kyBuf, valid := s.kyValid, rng := s.rng }

/-- The state with its bit stream replaced. -/
def State.withBits (s : State) (b : BitStream) : State :=
  { s with kyBuf := b.buf, kyValid := b.valid, rng := b.rng }

/-- `rng_word()` (42 R183): the next word of the random port, a free value when none is held ready. -/
def RngPort.draw (r : RngPort) : Word × RngPort :=
  match r.queue with
  | w :: rest => (w, { queue := rest, drawn := r.drawn + 1 })
  | [] => (Config.rngWord r.drawn, { queue := [], drawn := r.drawn + 1 })

/-- The refill of `next_bit()` (42 R184): only an empty buffer is refilled, with one whole word. -/
def BitStream.refill (b : BitStream) : BitStream :=
  if b.valid = 0 then { buf := b.rng.draw.1, valid := 32, rng := b.rng.draw.2 } else b

/-- `next_bit()` after the refill (42 R184): bit 0 of the buffer, which is shifted right with 0 entering at bit 31. -/
def BitStream.take (b : BitStream) : Bool × BitStream :=
  (b.buf.getLsbD 0, { b with buf := b.buf >>> 1, valid := ⟨b.valid.val - 1, by omega⟩ })

/-- `next_bit()` (42 R184). -/
def BitStream.nextBit (b : BitStream) : Bool × BitStream :=
  b.refill.take

end Sys2Proof.Machine
end

