-- ==== Sys2Proof/Machine/Flags.lean ====
section
/-! DEFINITION. The status flags (10_state R52): what a completion does to them, the interrupt output (R51), and the words the
CFG, CTRL and STATUS registers read as (R35, R38, R39). -/

namespace Sys2Proof.Machine

/-- The end of every completion (30_encoding R107): BUSY <- 0, DONE <- 1. -/
def State.complete (s : State) : State :=
  { s with busy := false, done := true }

/-- An accepted command (30_encoding R106): PEND <- w, BUSY <- 1, DONE <- 0. -/
def State.accept (w : Word) (s : State) : State :=
  { s with pend := w, busy := true, done := false }

/-- A command rejected at issue (30_encoding R106): DONE <- 1, and the error is raised. -/
def State.reject (code : ErrCode) (s : State) : State :=
  State.raise code { s with done := true }

/-- The interrupt output (10_state R51): IRQ_EN and (DONE = 1 or ERR ≠ 0). -/
def State.irq (s : State) : Bool :=
  s.irqEn && (s.done || s.err != .none)

/-- The 4-bit code in STATUS.ERR (60_exceptions R240). -/
def ErrCode.code : ErrCode → BitVec 4
  | .none => 0
  | .illegal => 1
  | .config => 2
  | .state => 3
  | .busy => 4
  | .kyExhausted => 5

/-- The word a STATUS read returns (10_state R39). -/
def State.statusWord (s : State) : Word :=
  0#23 ++ BitVec.ofBool s.irq ++ s.err.code ++ 0#1 ++ BitVec.ofBool s.configured ++ BitVec.ofBool s.done
    ++ BitVec.ofBool s.busy

/-- The word a CFG read returns (10_state R35). -/
def State.cfgWord (s : State) : Word :=
  0#30 ++ s.pset.code

/-- The word a CTRL read returns (10_state R38). -/
def State.ctrlWord (s : State) : Word :=
  0#31 ++ BitVec.ofBool s.irqEn

/-- The word a PARAM_N read returns (10_state R44). -/
def State.paramNWord (s : State) : Word :=
  if s.configured then BitVec.ofNat 32 s.n else 0

/-- The word a PARAM_Q read returns (10_state R44). -/
def State.paramQWord (s : State) : Word :=
  if s.configured then BitVec.ofNat 32 s.q else 0

end Sys2Proof.Machine
end

