-- ==== Sys2Proof/Machine/Bus.lean ====
section
/-! DEFINITION. The host bus (20_memory): the register map (10_state R33), what a word read returns and a word write does at
each register, command issue (30_encoding R106), and one transaction of the host. -/

namespace Sys2Proof.Machine

/-- The registers of the map (10_state R33). -/
inductive Reg where
  | id
  | cfg
  | ctrl
  | status
  | cmd
  | xLo
  | xHi
  | result
  | paramN
  | paramQ
  | poly (k : PReg) (i : Index)
  | reserved
  deriving DecidableEq, Repr

/-- The offset of coefficient P[k][i] (10_state R46). -/
def polyOffset (k : PReg) (i : Index) : Nat :=
  0x1000 + k.val * 0x800 + i.val * 4

/-- The register at an offset of the window (10_state R33, R45, R46). -/
def regAt (off : Nat) : Reg :=
  match off with
  | 0x000 => .id
  | 0x004 => .cfg
  | 0x008 => .ctrl
  | 0x00C => .status
  | 0x010 => .cmd
  | 0x014 => .xLo
  | 0x018 => .xHi
  | 0x01C => .result
  | 0x020 => .paramN
  | 0x024 => .paramQ
  | off =>
    if h : 0x1000 ≤ off ∧ off < 0x5000 then
      .poly ⟨(off - 0x1000) / 0x800, by omega⟩ ⟨(off - 0x1000) % 0x800 / 4, by omega⟩
    else .reserved

/-- `ID_VALUE` (10_state R34). -/
def idValue : Word :=
  0x524C5745

/-- A read while BUSY of a register whose value is then unspecified (20_memory R80, 93 I2): a fresh free value. -/
def State.freeRead (s : State) : Word × State :=
  (Config.busyRead s.freeReads, { s with freeReads := s.freeReads + 1 })

/-- What a POLY-window read returns when not busy (10_state R47). -/
def State.polyWord (s : State) (k : PReg) (i : Index) : Word :=
  if s.configured = false then 0
  else if s.n ≤ i.val then 0
  else BitVec.ofNat 32 (s.coef k i.val)

/-- A word read of a register: the value and the state after, which differs only in the numbering of free values
(10_state R34 to R47, 20_memory R78, R80). -/
def readReg (r : Reg) (s : State) : Word × State :=
  match r with
  | .id => (idValue, s)
  | .cfg => (s.cfgWord, s)
  | .ctrl => (s.ctrlWord, s)
  | .status => (s.statusWord, s)
  | .cmd => (0, s)
  | .xLo => (s.xLo, s)
  | .xHi => (s.xHi, s)
  | .result => if s.busy then s.freeRead else (s.result, s)
  | .paramN => (s.paramNWord, s)
  | .paramQ => (s.paramQWord, s)
  | .poly k i => if s.busy then s.freeRead else (s.polyWord k i, s)
  | .reserved => (0, s)

/-- A legal CFG write's effect (10_state R36): the new parameter set, with P, RESULT and the KY buffer cleared. -/
def State.configure (p : ParamSet) (s : State) : State :=
  { s with
    pset := p
    configured := true
    polys := Vector.replicate 8 (Vector.replicate 512 0)
    result := 0
    kyBuf := 0
    kyValid := 0 }

/-- A CFG write while idle (10_state R36, R37). -/
def State.writeCfg (w : Word) (s : State) : State :=
  match ParamSet.ofCode (w.extractLsb' 0 2) with
  | some p => s.configure p
  | none => s.raise .config

/-- A CMD write while idle: command issue (30_encoding R106), its checks in the order of 60_exceptions R249. -/
def State.issue (w : Word) (s : State) : State :=
  match decode w with
  | .error _ => s.reject .illegal
  | .ok _ => if s.configured then s.accept w else s.reject .state

/-- A POLY-window write while idle (10_state R48). -/
def State.writePoly (k : PReg) (i : Index) (w : Word) (s : State) : State :=
  if s.configured = false then s.raise .state
  else if s.n ≤ i.val then s
  else s.setPoly k (s.polys[k].set i (BitVec.ofNat 14 (reduceQ s.q w.toInt)))

/-- A write that is dropped with the BUSY error while a command is in flight (20_memory R80, 60_exceptions R243). -/
def State.unlessBusy (s : State) (t : State) : State :=
  if s.busy then s.raise .busy else t

/-- A word write of a register (10_state R36 to R53, 20_memory R80). -/
def writeReg (r : Reg) (w : Word) (s : State) : State :=
  match r with
  | .id => s
  | .cfg => s.unlessBusy (s.writeCfg w)
  | .ctrl => { s with irqEn := w.getLsbD 0 }
  | .status => s.clearStatus w
  | .cmd => s.unlessBusy (s.issue w)
  | .xLo => s.unlessBusy { s with xLo := w }
  | .xHi => s.unlessBusy { s with xHi := w }
  | .result => s
  | .paramN => s
  | .paramQ => s
  | .poly k i => s.unlessBusy (s.writePoly k i w)
  | .reserved => s

/-- Where a bus address goes (20_memory R70, R72, R73). -/
inductive Target where
  /-- outside the block's window -/
  | outside
  /-- in the window, but not a 32-bit access to a word-aligned offset -/
  | bad
  /-- a register -/
  | reg (r : Reg)
  deriving DecidableEq, Repr

/-- Decoding a bus address and an access size (20_memory R70 to R73). -/
def State.target (s : State) (addr : Nat) (size : AccessSize) : Target :=
  if s.config.baseAddr ≤ addr ∧ addr < s.config.baseAddr + 0x8000 then
    if size = .word ∧ (addr - s.config.baseAddr) % 4 = 0 then .reg (regAt (addr - s.config.baseAddr)) else .bad
  else .outside

/-- `MemRead(addr, size)` (00_scope R12): the value read is appended to `reads`. -/
def busRead (addr : Nat) (size : AccessSize) (s : State) : Host.Outcome State Fault Refusal :=
  match s.target addr size with
  | .outside => .refused .outsideWindow
  | .bad => .fault .busError
  | .reg r => .next { (readReg r s).2 with reads := s.reads ++ [(readReg r s).1] }

/-- `MemWrite(addr, size, v)` (00_scope R12). -/
def busWrite (addr : Nat) (size : AccessSize) (v : Word) (s : State) : Host.Outcome State Fault Refusal :=
  match s.target addr size with
  | .outside => .refused .outsideWindow
  | .bad => .fault .busError
  | .reg r => .next (writeReg r v s)

end Sys2Proof.Machine
end

