-- ==== Sys2Proof/Machine/Ntt.lean ====
section
/-! DEFINITION. The number-theoretic transform (41_ntt): the closed forms of R152 to R155, the commands NTT_FWD, NTT_INV and
REARRANGE (R160 to R162), and the butterfly algorithms of R159, which no command uses. -/

namespace Sys2Proof.Machine

/-- `bitrev_n(i)`: the number whose n-bit form is that of `i` reversed (41 R152). -/
def bitrev : Nat → Nat → Nat
  | 0, _ => 0
  | n + 1, i => i % 2 * 2 ^ n + bitrev n (i / 2)

/-- ψ^e mod q. The exponent is reduced mod 2N first, as 41 R153 allows (DEDUCED, notes/assumptions/7). -/
def rootPow (p : ParamSet) (root e : Nat) : Nat :=
  root ^ (e % (2 * p.n)) % p.q

/-- `forward(a)[i]` (41 R153). -/
def forward (c : Config) (p : ParamSet) (a : Nat → Nat) (i : Nat) : Nat :=
  reduceQ p.q (sumTo p.n fun j => a j * rootPow p (c.psi p) (j * (2 * bitrev p.logN i + 1)))

/-- `inverse(b)[i]`, with the scaling by N^-1 (41 R154). -/
def inverse (c : Config) (p : ParamSet) (b : Nat → Nat) (i : Nat) : Nat :=
  reduceQ p.q (p.nInv * sumTo p.n fun k => b k * rootPow p (c.psiInv p) ((2 * k + 1) * bitrev p.logN i))

/-- `rearrange(a)[i]` (41 R155). -/
def rearrange (p : ParamSet) (a : Nat → Nat) (i : Nat) : Nat :=
  a (bitrev p.logN i)

/-- NTT_FWD (41 R160). -/
def execNttFwd (rd ra : PReg) (s : State) : Host.Outcome State Fault Refusal :=
  .next (State.complete (s.setRing rd (forward s.config s.pset (s.source ra))))

/-- NTT_INV (41 R161). -/
def execNttInv (rd ra : PReg) (s : State) : Host.Outcome State Fault Refusal :=
  .next (State.complete (s.setRing rd (inverse s.config s.pset (s.source ra))))

/-- REARRANGE (41 R162). -/
def execRearrange (rd ra : PReg) (s : State) : Host.Outcome State Fault Refusal :=
  .next (State.complete (s.setRing rd (rearrange s.pset (s.source ra))))

/-- One butterfly stage of 41 R159 with half-block length `len` and `W` = `w`: entry `i` is the upper or the lower output of
its butterfly, by its place in its block of `2·len` entries. -/
def butterflyStage (p : ParamSet) (w len : Nat) (a : Nat → Nat) (i : Nat) : Nat :=
  let j := i % (2 * len)
  if j < len then reduceQ p.q ((a i : Int) + a (i + len))
  else reduceQ p.q (((a (i - len) : Int) - a i) * (w ^ ((j - len) * (p.n / (2 * len))) : Nat))

/-- The butterfly loop of 41 R159: `stages` stages with `len` = 2^(stages-1), …, 2, 1. -/
def butterflyLoop (p : ParamSet) (w : Nat) : Nat → (Nat → Nat) → Nat → Nat
  | 0, a => a
  | stages + 1, a => butterflyLoop p w stages (butterflyStage p w (2 ^ stages) a)

/-- `forward_bf(a)` (41 R159): the negacyclic twist, then the butterfly network with W = ψ². -/
def forwardBf (c : Config) (p : ParamSet) (a : Nat → Nat) : Nat → Nat :=
  butterflyLoop p (c.psi p ^ 2) p.logN fun j => reduceQ p.q (a j * c.psi p ^ j)

/-- `inverse_bf(b)` (41 R159): the same network with W = ψ^-2, then the scaling and the untwist. -/
def inverseBf (c : Config) (p : ParamSet) (b : Nat → Nat) (i : Nat) : Nat :=
  reduceQ p.q (butterflyLoop p (c.psiInv p ^ 2) p.logN b i * p.nInv * c.psiInv p ^ bitrev p.logN i)

end Sys2Proof.Machine
end

