-- ==== Sys2Proof/Machine/Pointwise.lean ====
section
/-! DEFINITION. The pointwise ring operations PADD, PSUB and PMUL (43_polynomial_ops). -/

namespace Sys2Proof.Machine

/-- A lane-wise command (43 R223): lane `i` of P[rd] becomes `reduce_q` of an exact integer made of lane `i` of each source. -/
def State.lanewise (s : State) (rd ra rb : PReg) (f : Int → Int → Int) : State :=
  State.complete (s.setRing rd fun i => reduceQ s.q (f (s.source ra i) (s.source rb i)))

/-- PADD (43 R220). -/
def execPadd (rd ra rb : PReg) (s : State) : Host.Outcome State Fault Refusal :=
  .next (s.lanewise rd ra rb fun a b => a + b)

/-- PSUB (43 R221): RA is the minuend, RB the subtrahend. -/
def execPsub (rd ra rb : PReg) (s : State) : Host.Outcome State Fault Refusal :=
  .next (s.lanewise rd ra rb fun a b => a - b)

/-- PMUL (43 R222). -/
def execPmul (rd ra rb : PReg) (s : State) : Host.Outcome State Fault Refusal :=
  .next (s.lanewise rd ra rb fun a b => a * b)

end Sys2Proof.Machine
end

