-- ==== Sys2Proof/Machine/Reduce.lean ====
section
/-! DEFINITION. The REDUCE command (40_modular_reduce). -/

namespace Sys2Proof.Machine

/-- REDUCE (40 R133): RESULT <- zext_32(reduce_q(X)), at completion. -/
def execReduce (s : State) : Host.Outcome State Fault Refusal :=
  .next (State.complete { s with result := BitVec.ofNat 32 (reduceQ s.q s.xOperand) })

end Sys2Proof.Machine
end

