-- ==== Sys2Proof/Machine/Sampler.lean ====
section
/-! DEFINITION. The Knuth-Yao sampler (42_gaussian_sampler): the column-scan walk (R185), the sign fold (R186), and the commands
SAMPLE1 and SAMPLE (R190, R191). -/

namespace Sys2Proof.Machine

/-- How the scan of one column ends (42 R185): a hit at a row, or a distance to go on with. -/
inductive Scan where
  | hit (r : Nat)
  | miss (d : Int)
  deriving DecidableEq, Repr

/-- The scan of column `c` over rows `rows-1` down to 0 (42 R185). -/
def scanRows (m : KyMatrix) (c : Nat) : Nat → Int → Scan
  | 0, d => .miss d
  | r + 1, d =>
    let d' := d - (m.bit r c).toNat
    if d' = -1 then .hit r else scanRows m c r d'

/-- `ky_walk()` from column `c` on with distance `d`, with so many columns left (42 R185): one random bit for each column. -/
def walkFrom (m : KyMatrix) : Nat → Nat → Int → BitStream → Option Nat × BitStream
  | 0, _, _, b => (none, b)
  | left + 1, c, d, b =>
    match scanRows m c m.rowCount (2 * d + b.nextBit.1.toNat) with
    | .hit r => (some r, b.nextBit.2)
    | .miss d' => walkFrom m left (c + 1) d' b.nextBit.2

/-- `ky_walk()` (42 R185): `some r` is HIT(r), `none` is EXHAUSTED. -/
def kyWalk (m : KyMatrix) (b : BitStream) : Option Nat × BitStream :=
  walkFrom m m.cols 0 0 b

/-- `sample_one()` (42 R186): the sign bit is drawn after a hit, and 1 folds m to reduce_q(q - m). -/
def sampleOne (q : Nat) (m : KyMatrix) (b : BitStream) : Option Nat × BitStream :=
  match kyWalk m b with
  | (none, b') => (none, b')
  | (some r, b') => (some (if b'.nextBit.1 then reduceQ q ((q : Int) - r) else r), b'.nextBit.2)

/-- So many samples, the first drawn first; the first exhausted walk ends them (42 R191). -/
def sampleMany (q : Nat) (m : KyMatrix) : Nat → BitStream → Option (List Nat) × BitStream
  | 0, b => (some [], b)
  | k + 1, b =>
    match sampleOne q m b with
    | (none, b') => (none, b')
    | (some v, b') =>
      match sampleMany q m k b' with
      | (none, b'') => (none, b'')
      | (some vs, b'') => (some (v :: vs), b'')

/-- The Knuth-Yao matrix of the current parameter set. -/
def State.kyMatrix (s : State) : KyMatrix :=
  s.config.ky s.pset

/-- What SAMPLE1 leaves when the sampler answers `r` (42 R190): RESULT on success; on exhaustion only the error, the bits
consumed staying consumed (R187). -/
def State.finishSample1 (s : State) (r : Option Nat × BitStream) : State :=
  match r.1 with
  | some v => State.complete { s.withBits r.2 with result := BitVec.ofNat 32 v }
  | none => State.complete (State.raise .kyExhausted (s.withBits r.2))

/-- What SAMPLE leaves when the sampler answers `r` (42 R191): the N samples in P[rd], or P[rd] unchanged and the error. -/
def State.finishSample (s : State) (rd : PReg) (r : Option (List Nat) × BitStream) : State :=
  match r.1 with
  | some vs => State.complete ((s.withBits r.2).setRing rd fun i => vs.getD i 0)
  | none => State.complete (State.raise .kyExhausted (s.withBits r.2))

/-- SAMPLE1 (42 R190). -/
def execSample1 (s : State) : Host.Outcome State Fault Refusal :=
  .next (s.finishSample1 (sampleOne s.q s.kyMatrix s.bits))

/-- SAMPLE (42 R191). -/
def execSample (rd : PReg) (s : State) : Host.Outcome State Fault Refusal :=
  .next (s.finishSample rd (sampleMany s.q s.kyMatrix s.n s.bits))

end Sys2Proof.Machine
end

