-- ==== Sys2Proof/Machine/Dispatch.lean ====
section
/-! DEFINITION. The meaning of each command: what the ENGINE's completion of it does (30_encoding R107). -/

namespace Sys2Proof.Machine

def exec (i : Instr) (s : State) : Host.Outcome State Fault Refusal :=
  match i with
  | .reduce => Sys2Proof.Machine.execReduce s
  | .sample1 => Sys2Proof.Machine.execSample1 s
  | .nttFwd rd ra => Sys2Proof.Machine.execNttFwd rd ra s
  | .nttInv rd ra => Sys2Proof.Machine.execNttInv rd ra s
  | .rearrange rd ra => Sys2Proof.Machine.execRearrange rd ra s
  | .padd rd ra rb => Sys2Proof.Machine.execPadd rd ra rb s
  | .psub rd ra rb => Sys2Proof.Machine.execPsub rd ra rb s
  | .pmul rd ra rb => Sys2Proof.Machine.execPmul rd ra rb s
  | .sample rd => Sys2Proof.Machine.execSample rd s

end Sys2Proof.Machine
end

