-- ==== Sys2Proof/Machine/Agents.lean ====
section
/-! DEFINITION. One turn of each agent (00_scope R15): the HOST's next transaction, the ENGINE's completion of the command in
flight (30_encoding R107), and the platform's reset (70 R270). -/

namespace Sys2Proof.Machine

/-- The HOST's turn: its next transaction in program order (20_memory R81); with none left it does nothing. A `wait` polls
STATUS once and stays until BUSY reads 0 (30_encoding R113). -/
def hostTurn (s : State) : Host.Outcome State Fault Refusal :=
  match s.host with
  | [] => .next s
  | .read addr size :: rest => busRead addr size { s with host := rest }
  | .write addr size v :: rest => busWrite addr size v { s with host := rest }
  | .wait :: rest => .next (if s.statusWord.getLsbD 0 then s else { s with host := rest })

/-- The ENGINE's turn: "one step, enabled exactly when STATUS.BUSY = 1" (30_encoding R107). Where it is not enabled, the turn
passes (DESIGN CHOICE, notes/assumptions/8). -/
def engineTurn (s : State) : Host.Outcome State Fault Refusal :=
  if s.busy then
    match decode s.pend with
    | .ok i => exec i s
    | .error _ => .fault .pendingIllegal
  else .next s

/-- An agent's turn. -/
def takeTurn (t : Turn) (s : State) : Host.Outcome State Fault Refusal :=
  match t with
  | .host => hostTurn s
  | .engine => engineTurn s
  | .reset => .next s.resetBlock

/-- Who moves when the schedule is used up: the ENGINE while a command is in flight, so that it completes (70 R281), else the
HOST (DESIGN CHOICE, notes/assumptions/1). -/
def State.defaultTurn (s : State) : Turn :=
  if s.busy then .engine else .host

/-- The state in which the ENGINE's turn is next and PEND holds a table word: what an accepted CMD write leaves (30_encoding
R106), with the turn that completes it scheduled first (DESIGN CHOICE, notes/assumptions/3). -/
def State.loadCommand (s : State) (nbits w : Nat) : State :=
  { State.accept (tableWord nbits w) s with configured := true, turns := .engine :: s.turns }

end Sys2Proof.Machine
end

