-- ==== Sys2Proof/Machine/Step.lean ====
section
/-! DEFINITION. One step of the machine: one agent's turn, taken whole (00_scope R15, 20_memory R81). -/

namespace Sys2Proof.Machine

/-- The next agent of the schedule takes its turn. -/
def step (s : State) : Host.Outcome State Fault Refusal :=
  match s.turns with
  | [] => takeTurn s.defaultTurn s
  | t :: rest => takeTurn t { s with turns := rest }

/-- The state whose next step completes the command whose word the opcode table numbers `w` (DESIGN CHOICE, notes/assumptions/3). -/
def State.withFetchWord (s : State) (nbits w : Nat) : State :=
  s.loadCommand nbits w

end Sys2Proof.Machine
end

