-- ==== Sys2Proof/Machine/Assembler.lean ====
section
/-! DEFINITION. The assembler of command assembly (30_encoding R110, R111): reading a line of text, and turning it into a
command, refusing what the rule refuses. -/

namespace Sys2Proof.Machine

/-- Why the assembler refuses a line (30_encoding R110). -/
inductive AsmError where
  /-- the text is not a mnemonic and register operands separated by commas; so is a line with no command on it (DESIGN CHOICE,
  notes/assumptions/17) -/
  | badText
  /-- a wrong operand count -/
  | operandCount
  /-- a register number above 7 -/
  | registerNumber
  deriving DecidableEq, Repr

/-- The lower-case spelling of each mnemonic (30_encoding R110). -/
def Mnemonic.text : Mnemonic → List Char
  | .reduce => "reduce".toList
  | .sample1 => "sample1".toList
  | .nttFwd => "ntt_fwd".toList
  | .nttInv => "ntt_inv".toList
  | .rearrange => "rearrange".toList
  | .padd => "padd".toList
  | .psub => "psub".toList
  | .pmul => "pmul".toList
  | .sample => "sample".toList

/-- The mnemonic a word spells. -/
def mnemonicOf (t : List Char) : Option Mnemonic :=
  (opcodeRows.map fun r => r.mnemonic).find? fun m => decide (Mnemonic.text m = t)

/-- Text without the spaces at its ends; a tab is no space (DESIGN CHOICE, notes/assumptions/17). -/
def trimSpaces (t : List Char) : List Char :=
  ((t.dropWhile fun c => c = ' ').reverse.dropWhile fun c => c = ' ').reverse

/-- The pieces of a text between commas. -/
def splitCommas : List Char → List (List Char)
  | [] => [[]]
  | c :: t =>
    match splitCommas t with
    | [] => [[c]]
    | p :: ps => if c = ',' then [] :: p :: ps else (c :: p) :: ps

/-- A decimal number written without a leading zero (DESIGN CHOICE, notes/assumptions/17). -/
def decimal (t : List Char) : Option Nat :=
  if t = [] ∨ (1 < t.length ∧ t.head? = some '0') ∨ t.any (fun c => c < '0' || '9' < c) then none
  else some (t.foldl (fun n c => n * 10 + (c.toNat - '0'.toNat)) 0)

/-- A register operand, `p` or `P` and a number (30_encoding R110). -/
def registerOf : List Char → Option Nat
  | c :: t => if c = 'p' ∨ c = 'P' then decimal t else none
  | [] => none

/-- All the values of a list of answers, if each answer has one. -/
def allSome : List (Option Nat) → Option (List Nat)
  | [] => some []
  | none :: _ => none
  | some v :: t =>
    match allSome t with
    | none => none
    | some vs => some (v :: vs)

/-- The register operands of a text: none when it is blank. -/
def operandsOf (t : List Char) : Option (List Nat) :=
  if trimSpaces t = [] then some [] else allSome ((splitCommas t).map fun p => registerOf (trimSpaces p))

/-- Reading a line of assembly (30_encoding R110): the comment from `;` on is dropped. A line with no command on it, blank or only a
comment, is not read: R110 leaves it open, and it is the model's choice (DESIGN CHOICE, notes/assumptions/17), as are the spaces. -/
def readLine (t : List Char) : Option AsmLine :=
  let body := trimSpaces (t.takeWhile fun c => c ≠ ';')
  match mnemonicOf (body.takeWhile fun c => c ≠ ' '), operandsOf (body.dropWhile fun c => c ≠ ' ') with
  | some m, some ops => some { mnemonic := m, operands := ops }
  | _, _ => none

/-- An operand of a line by its place, as a register number. -/
def operandAt (l : AsmLine) (k : Nat) : PReg :=
  Fin.ofNat 8 (l.operands.getD k 0)

/-- Assembling a line (30_encoding R110, R111): its operands are RD, RA, RB in order. -/
def assembleLine (l : AsmLine) : Except AsmError Instr :=
  if l.operands.length ≠ l.mnemonic.format.operandCount then .error .operandCount
  else if l.operands.any (fun r => 8 ≤ r) then .error .registerNumber
  else .ok (l.mnemonic.command (operandAt l 0) (operandAt l 1) (operandAt l 2))

/-- Assembling a line of text to its command word (30_encoding R110). A blank or comment-only line is `badText` (DESIGN CHOICE,
notes/assumptions/17). -/
def assemble (t : List Char) : Except AsmError Word :=
  match readLine t with
  | none => .error .badText
  | some l =>
    match assembleLine l with
    | .error e => .error e
    | .ok i => .ok (encode i)

end Sys2Proof.Machine
end

