-- ==== Sys2Proof/Machine/HostProgram.lean ====
section
/-! DEFINITION. The host-program notation (30_encoding R112 to R114): its lines and pseudo-operations, and the bus transactions
they stand for. -/

namespace Sys2Proof.Machine

/-- The offset of a register of the map (10_state R33, R46); a reserved register has no one offset. -/
def Reg.offset : Reg → Option Nat
  | .id => some 0x000
  | .cfg => some 0x004
  | .ctrl => some 0x008
  | .status => some 0x00C
  | .cmd => some 0x010
  | .xLo => some 0x014
  | .xHi => some 0x018
  | .result => some 0x01C
  | .paramN => some 0x020
  | .paramQ => some 0x024
  | .poly k i => some (polyOffset k i)
  | .reserved => none

/-- A line of a host program (30_encoding R112, R113). -/
inductive HostLine where
  | sw (off : Nat) (v : Word)
  | lw (off : Nat)
  | cfg (s : Word)
  | setx (v : Int)
  | cmd (i : Instr)
  | wait
  | run (i : Instr)
  | clr
  deriving DecidableEq, Repr

/-- A word write of the register at an offset (30_encoding R112). -/
def swOp (base off : Nat) (v : Word) : HostOp :=
  .write (base + off) .word v

/-- The transactions a line stands for (30_encoding R112, R113), for a block at `base`. -/
def HostLine.expand (base : Nat) : HostLine → List HostOp
  | .sw off v => [swOp base off v]
  | .lw off => [.read (base + off) .word]
  | .cfg s => [swOp base 0x004 s]
  | .setx v =>
    [swOp base 0x014 ((BitVec.ofInt 64 v).extractLsb' 0 32), swOp base 0x018 ((BitVec.ofInt 64 v).extractLsb' 32 32)]
  | .cmd i => [swOp base 0x010 (encode i)]
  | .wait => [.wait]
  | .run i => [swOp base 0x010 (encode i), .wait]
  | .clr => [swOp base 0x00C 0x0000000A]

/-- The machine with a host program to run: its transactions are what the host has to do (30_encoding R114). -/
def State.withProgram (s : State) (lines : List HostLine) : State :=
  { s with host := lines.flatMap fun l => l.expand s.config.baseAddr }

end Sys2Proof.Machine
end

