-- ==== Sys2Proof/Safety.lean ====
section
/-! DEFINITION. What a good state is, and the relations between states the claims are stated in: which parts two states share,
and which turn of which agent a step takes. -/

namespace Sys2Proof.Machine

/-- The invariant of the polynomial register file (10_state R32). -/
def State.PolyInv (s : State) : Prop :=
  ∀ (k : PReg) (i : Nat), (i < s.n → s.coef k i < s.q) ∧ (s.n ≤ i → s.coef k i = 0)

/-- The random-bit buffer (10_state R49): the bits not yet consumed are KY_BUF[KY_VALID-1:0] and the others are 0. -/
def State.BufInv (s : State) : Prop :=
  s.kyBuf.toNat < 2 ^ s.kyValid.val

/-- RESULT holds a value in [0, q) (10_state R43). -/
def State.ResultInv (s : State) : Prop :=
  s.result.toNat < s.q

/-- A command in flight was accepted (30_encoding R106): the block is configured and PEND is a legal command. -/
def State.PendInv (s : State) : Prop :=
  s.busy = true → s.configured = true ∧ ∃ i, decode s.pend = .ok i

/-- What holds at every point between two steps of any agent. -/
structure State.Inv (s : State) : Prop where
  config : s.config.Valid
  poly : s.PolyInv
  buf : s.BufInv
  result : s.ResultInv
  pend : s.PendInv

/-- Two states agree on what no command writes: the configuration, CFG, CTRL, X, PEND, and the environment but for the random
port. -/
structure State.SameSetup (s t : State) : Prop where
  config : t.config = s.config
  pset : t.pset = s.pset
  configured : t.configured = s.configured
  irqEn : t.irqEn = s.irqEn
  xLo : t.xLo = s.xLo
  xHi : t.xHi = s.xHi
  pend : t.pend = s.pend
  freeReads : t.freeReads = s.freeReads
  host : t.host = s.host
  turns : t.turns = s.turns
  reads : t.reads = s.reads

/-- Two states agree on the environment: the random port, the host, the schedule and what was read. -/
structure State.SameEnv (s t : State) : Prop where
  config : t.config = s.config
  rng : t.rng = s.rng
  freeReads : t.freeReads = s.freeReads
  host : t.host = s.host
  turns : t.turns = s.turns
  reads : t.reads = s.reads

/-- Two states have the same polynomial coefficients in every register but `rd`. -/
def State.SamePolysBut (s t : State) (rd : PReg) : Prop :=
  ∀ (k : PReg) (i : Nat), k ≠ rd → t.coef k i = s.coef k i

/-- Two states have the same polynomial coefficients. -/
def State.SamePolys (s t : State) : Prop :=
  ∀ (k : PReg) (i : Nat), t.coef k i = s.coef k i

/-- Two states hold the same random bits. -/
def State.SameBits (s t : State) : Prop :=
  t.bits = s.bits

/-- The flags a completion without an error leaves (30_encoding R107, 10_state R52): BUSY 0, DONE 1, the others as before. -/
structure State.Completed (s t : State) : Prop where
  busy : t.busy = false
  done : t.done = true
  err : t.err = s.err

/-- A command that writes a ring element (41 R160 to R162, 43 R220 to R222, 42 R191) went from `s` to `t`: lane `i` of P[rd]
is `f i`, the entries from N on and the other registers are as before, and so are RESULT and the random bits; the flags are
those of a completion without an error. -/
structure State.WroteRing (s t : State) (rd : PReg) (f : Nat → Nat) : Prop where
  lanes : ∀ i < s.n, t.coef rd i = f i
  above : ∀ i, s.n ≤ i → t.coef rd i = s.coef rd i
  others : s.SamePolysBut t rd
  result : t.result = s.result
  bits : s.SameBits t
  flags : s.Completed t
  setup : s.SameSetup t

/-- A sampling command failed between `s` and `t` (42 R187, 60_exceptions R246): no destination is written, KY_EXHAUSTED is
latched, and the random bits are those of `b`. -/
structure State.Exhausted (s t : State) (b : BitStream) : Prop where
  polys : s.SamePolys t
  result : t.result = s.result
  bits : t.bits = b
  busy : t.busy = false
  done : t.done = true
  err : t.err = if s.err = .none then .kyExhausted else s.err
  setup : s.SameSetup t

/-- The agent whose turn a step takes. -/
def State.agent (s : State) : Turn :=
  match s.turns with
  | [] => s.defaultTurn
  | t :: _ => t

/-- The state with the turn that a step takes off the schedule. -/
def State.afterTurn (s : State) : State :=
  { s with turns := s.turns.tail }

/-- So many random bits drawn from a stream and thrown away (42 R184). -/
def BitStream.skip : Nat → BitStream → BitStream
  | 0, b => b
  | k + 1, b => BitStream.skip k b.nextBit.2

/-- The `k`th random bit of a stream, counted from 0 (42 R184). -/
def BitStream.bitAt (b : BitStream) (k : Nat) : Bool :=
  (BitStream.skip k b).nextBit.1

/-- The ones of column `c` in the rows from KY_ROWS-1 down to `r` (42 R185). -/
def onesDownTo (m : KyMatrix) (c r : Nat) : Nat :=
  ∑ j ∈ Finset.Ico r m.rowCount, (m.bit j c).toNat

/-- The distance `d` of the walk before column `c`, when no column before it has a hit (42 R185): the bit of each column is added to
the doubled distance and all the ones of the column are taken away. -/
def walkDistance (m : KyMatrix) (b : BitStream) : Nat → Int
  | 0 => 0
  | c + 1 => 2 * walkDistance m b c + (b.bitAt c).toNat - onesDownTo m c 0

/-- The distance in column `c` once the rows from KY_ROWS-1 down to `r` are taken away (42 R185). -/
def distanceAfter (m : KyMatrix) (b : BitStream) (c r : Nat) : Int :=
  2 * walkDistance m b c + (b.bitAt c).toNat - onesDownTo m c r

/-- HIT(r) in column `c` (42 R185): `r` is the first row from KY_ROWS-1 down at which the distance is -1. -/
structure ColumnHit (m : KyMatrix) (b : BitStream) (c r : Nat) : Prop where
  row : r < m.rowCount
  hit : distanceAfter m b c r = -1
  first : ∀ r', r < r' → r' < m.rowCount → distanceAfter m b c r' ≠ -1

/-- The product in Z_q[x]/(x^N + 1) (41 R158): entry `m`, with the terms of i + j = m + N subtracted. -/
def ringMul (p : ParamSet) (a b : Nat → Nat) (m : Nat) : Nat :=
  reduceQ p.q
    (((sumTo p.n fun i => if i ≤ m then a i * b (m - i) else 0 : Nat) : Int)
      - ((sumTo p.n fun i => if m < i then a i * b (m + p.n - i) else 0 : Nat) : Int))

/-- Lane-wise product (43 R222) on sequences. -/
def pointwiseMul (p : ParamSet) (a b : Nat → Nat) (i : Nat) : Nat :=
  reduceQ p.q ((a i : Int) * b i)

end Sys2Proof.Machine
end

