-- ==== Sys2Proof/Certificates/Slice0/Obligations.lean ====
section
/-! DEFINITION. The statements for the provers, by the files of spec/ they come from. -/

open Sys2Proof Sys2Proof.Machine

/-! Command encoding (30_encoding) -/

/-- Every command's encoding decodes to it, with every register field at every value (30_encoding R100 to R104). -/
def Obligations.DecodeOfEncodeIsTheCommand : Prop :=
  ∀ i : Instr, decode (encode i) = .ok i

/-- A word that decodes to a command is that command's encoding: no two words mean the same command (30_encoding R102, R105). -/
def Obligations.DecodedWordIsTheEncoding : Prop :=
  ∀ (w : Word) (i : Instr), decode w = .ok i → encode i = w

/-- "No two rows can both match a word" (30_encoding R104). -/
def Obligations.NoWordSelectsTwoRows : Prop :=
  ∀ (w : Word) (r r' : Row), r ∈ opcodeRows → r' ∈ opcodeRows → r.selects w = true → r'.selects w = true → r = r'

/-- The illegal words are those that 30_encoding R105 lists: an OPC of no row, a reserved bit set, or a register field that the
format does not use (R102) not 0. -/
def Obligations.IllegalWordsAreTheReservedOnes : Prop :=
  ∀ w : Word, (∃ e, decode w = .error e) ↔
    opcField w ∉ ([0x01, 0x02, 0x10, 0x11, 0x12, 0x20, 0x21, 0x22, 0x30] : List (BitVec 8))
    ∨ w.getLsbD 11 = true ∨ w.getLsbD 15 = true ∨ w.extractLsb' 19 13 ≠ 0
    ∨ (opcField w ∈ ([0x01, 0x02] : List (BitVec 8)) ∧ (rdField w ≠ 0 ∨ raField w ≠ 0 ∨ rbField w ≠ 0))
    ∨ (opcField w = 0x30 ∧ (raField w ≠ 0 ∨ rbField w ≠ 0))
    ∨ (opcField w ∈ ([0x10, 0x11, 0x12] : List (BitVec 8)) ∧ rbField w ≠ 0)

/-- Words of the spec's own list (95 §2.5), legal and illegal, one of each format among them. -/
def Obligations.ListedWordsDecode : Prop :=
  decode 0x00000001 = .ok .reduce ∧ decode 0x00000002 = .ok .sample1 ∧ decode 0x00007710 = .ok (.nttFwd 7 7)
  ∧ decode 0x00002211 = .ok (.nttInv 2 2) ∧ decode 0x00002212 = .ok (.rearrange 2 2)
  ∧ decode 0x00010220 = .ok (.padd 2 0 1) ∧ decode 0x00010421 = .ok (.psub 4 0 1)
  ∧ decode 0x00056722 = .ok (.pmul 7 6 5) ∧ decode 0x00000530 = .ok (.sample 5)
  ∧ (∃ e, decode 0x00000000 = .error e) ∧ (∃ e, decode 0x00000101 = .error e) ∧ (∃ e, decode 0x00008010 = .error e)

/-- The bytes of a word are little-endian: byte `j` holds bits 8j+7 to 8j (20_memory R74). Decoding a command from those bytes is
decoding the word: the model's own reading (log entry 18), for the block takes a command word whole (30_encoding R106). -/
def Obligations.WordBytesAreLittleEndian : Prop :=
  ∀ (w : Word) (rest : List Byte),
    (∀ j < 4, (wordBytes w)[j]? = some (w.extractLsb' (8 * j) 8))
    ∧ ((∃ i, decode w = .ok i ∧ decodeBytes (wordBytes w ++ rest) = .ok (i, rest))
      ∨ (∃ e, decode w = .error e ∧ decodeBytes (wordBytes w ++ rest) = .error e))

/-- The assembler gives a well-formed line the command of its mnemonic with its operands as RD, RA, RB, and refuses every other
line: "a register number above 7 and a wrong operand count" (30_encoding R110). -/
def Obligations.AssemblerTakesExactlyWellFormedLines : Prop :=
  ∀ l : AsmLine,
    (l.WellFormed → ∃ i, assembleLine l = .ok i ∧ i.mnemonic = l.mnemonic
      ∧ (rdField (encode i)).val = l.operands.getD 0 0 ∧ (raField (encode i)).val = l.operands.getD 1 0
      ∧ (rbField (encode i)).val = l.operands.getD 2 0)
    ∧ (¬ l.WellFormed → ∃ e, assembleLine l = .error e)

/-! Modular reduction (40_modular_reduce) -/

/-- The six laws of reduce_q (40 R131), for the modulus of either parameter set. -/
def Obligations.ReductionLaws : Prop :=
  ∀ (p : ParamSet) (x y : Int),
    (reduceQ p.q x < p.q)
    ∧ (0 ≤ x → x < p.q → (reduceQ p.q x : Int) = x)
    ∧ (∀ k : Int, reduceQ p.q (x + k * p.q) = reduceQ p.q x)
    ∧ (reduceQ p.q (x + y) = reduceQ p.q (reduceQ p.q x + reduceQ p.q y)
      ∧ reduceQ p.q (x - y) = reduceQ p.q ((reduceQ p.q x : Int) - reduceQ p.q y)
      ∧ reduceQ p.q (x * y) = reduceQ p.q (reduceQ p.q x * reduceQ p.q y))
    ∧ (reduceQ p.q (-x) = if reduceQ p.q x = 0 then 0 else p.q - reduceQ p.q x)
    ∧ (reduceQ p.q p.q = 0 ∧ reduceQ p.q (-p.q) = 0)

/-- REDUCE completes: RESULT is the signed 64-bit X mod q, and only RESULT, BUSY and DONE may differ (40 R133). -/
def Obligations.ReduceGivesXModQ : Prop :=
  ∀ s : State, ∃ t, exec .reduce s = .next t
    ∧ (t.result.toNat : Int)
      = ((s.xHi.toNat : Int) * 2 ^ 32 + s.xLo.toNat - (if s.xHi.getLsbD 31 then 2 ^ 64 else 0)) % s.q
    ∧ s.SamePolys t ∧ s.SameBits t ∧ s.Completed t ∧ s.SameSetup t

/-! The transform (41_ntt) -/

/-- `bitrev_n(i)[b] = i[n-1-b]`, an involution on 0..2^n-1, with the examples of 41 R152. -/
def Obligations.BitReversal : Prop :=
  (ParamSet.logN .n256 = 8 ∧ ParamSet.logN .n512 = 9 ∧ ∀ p : ParamSet, p.n = 2 ^ p.logN)
  ∧ (∀ n i : Nat, i < 2 ^ n → bitrev n i < 2 ^ n ∧ (∀ b < n, (bitrev n i).testBit b = i.testBit (n - 1 - b))
    ∧ bitrev n (bitrev n i) = i)
  ∧ [1, 2, 3, 6, 254, 255].map (bitrev 8) = [128, 64, 192, 96, 127, 255]
  ∧ [1, 2, 3, 510].map (bitrev 9) = [256, 128, 384, 255]

/-- `rearrange(a)[i] = a[bitrev_n(i)]`, and it is its own inverse (41 R155). -/
def Obligations.RearrangeIsItsOwnInverse : Prop :=
  ∀ (p : ParamSet) (a : Nat → Nat) (i : Nat), i < p.n →
    rearrange p a i = a (bitrev p.logN i) ∧ rearrange p (rearrange p a) i = a i

/-- NTT_FWD completes and gives the closed form of 41 R153, for every configuration the spec allows (41 R160). -/
def Obligations.NttFwdGivesTheEvaluations : Prop :=
  ∀ (rd ra : PReg) (s : State), s.config.Valid → ∃ t, exec (.nttFwd rd ra) s = .next t
    ∧ s.WroteRing t rd fun i =>
      (∑ j ∈ Finset.range s.n, s.coef ra j * s.config.psi s.pset ^ (j * (2 * bitrev s.pset.logN i + 1))) % s.q

/-- NTT_INV completes and gives the closed form of 41 R154, with any inverse φ of ψ mod q (41 R161). -/
def Obligations.NttInvGivesTheCoefficients : Prop :=
  ∀ (rd ra : PReg) (s : State) (φ : Nat), s.config.Valid → s.config.psi s.pset * φ % s.q = 1 →
    ∃ t, exec (.nttInv rd ra) s = .next t
      ∧ s.WroteRing t rd fun i =>
        (s.pset.nInv * ∑ k ∈ Finset.range s.n, s.coef ra k * φ ^ ((2 * k + 1) * bitrev s.pset.logN i)) % s.q

/-- REARRANGE completes and moves the coefficient at bitrev_n(i) to i (41 R162). -/
def Obligations.RearrangePermutesTheCoefficients : Prop :=
  ∀ (rd ra : PReg) (s : State), ∃ t, exec (.rearrange rd ra) s = .next t
    ∧ s.WroteRing t rd fun i => s.coef ra (bitrev s.pset.logN i)

/-- The contract: `rearrange(inverse(rearrange(forward(a)))) = a` for every a with entries in [0, q) (41 R156). -/
def Obligations.TransformContract : Prop :=
  ∀ (c : Config) (p : ParamSet) (a : Nat → Nat), c.Valid → (∀ i < p.n, a i < p.q) →
    ∀ i < p.n, rearrange p (inverse c p (rearrange p (forward c p a))) i = a i

/-- The other way round: forward of `rearrange(inverse(rearrange(b)))` is b (41 R157). -/
def Obligations.ForwardUndoesTheRearrangedInverse : Prop :=
  ∀ (c : Config) (p : ParamSet) (b : Nat → Nat), c.Valid → (∀ i < p.n, b i < p.q) →
    ∀ i < p.n, forward c p (rearrange p (inverse c p (rearrange p b))) i = b i

/-- Pointwise products of transforms are transforms of ring products, and sums and differences commute with the transform
(41 R158). -/
def Obligations.PointwiseProductIsTheRingProduct : Prop :=
  ∀ (c : Config) (p : ParamSet) (a b : Nat → Nat), c.Valid → (∀ i < p.n, a i < p.q) → (∀ i < p.n, b i < p.q) →
    ∀ i < p.n,
      pointwiseMul p (forward c p a) (forward c p b) i = forward c p (ringMul p a b) i
      ∧ rearrange p (inverse c p (rearrange p (pointwiseMul p (forward c p a) (forward c p b)))) i = ringMul p a b i
      ∧ reduceQ p.q (forward c p a i + forward c p b i) = forward c p (fun j => reduceQ p.q (a j + b j)) i
      ∧ reduceQ p.q ((forward c p a i : Int) - forward c p b i)
        = forward c p (fun j => reduceQ p.q ((a j : Int) - b j)) i

/-- The butterfly algorithms compute exactly forward and inverse (41 R159). -/
def Obligations.ButterfliesComputeTheTransforms : Prop :=
  ∀ (c : Config) (p : ParamSet) (a : Nat → Nat), c.Valid → (∀ i < p.n, a i < p.q) →
    ∀ i < p.n, forwardBf c p a i = forward c p a i ∧ inverseBf c p a i = inverse c p a i

/-! Pointwise operations (43_polynomial_ops) -/

/-- PADD completes with `(a[i] + b[i]) mod q` in each lane, RD, RA and RB being any registers (43 R220). -/
def Obligations.PaddAddsLanes : Prop :=
  ∀ (rd ra rb : PReg) (s : State), ∃ t, exec (.padd rd ra rb) s = .next t
    ∧ s.WroteRing t rd fun i => (s.coef ra i + s.coef rb i) % s.q

/-- PSUB completes with `(a[i] - b[i]) mod q` in each lane (43 R221). -/
def Obligations.PsubSubtractsLanes : Prop :=
  ∀ (rd ra rb : PReg) (s : State), ∃ t, exec (.psub rd ra rb) s = .next t
    ∧ s.WroteRing t rd fun i => (((s.coef ra i : Int) - s.coef rb i) % s.q).toNat

/-- PMUL completes with `(a[i] · b[i]) mod q` in each lane (43 R222). -/
def Obligations.PmulMultipliesLanes : Prop :=
  ∀ (rd ra rb : PReg) (s : State), ∃ t, exec (.pmul rd ra rb) s = .next t
    ∧ s.WroteRing t rd fun i => s.coef ra i * s.coef rb i % s.q

/-! The sampler (42_gaussian_sampler) -/

/-- Random bits come from a word least-significant bit first (42 R182): of an empty buffer, bit `k` of the stream is `w[k]` for one
word `w` of the random port, and its 32 bits use the word up. Which word the port delivers is the model's choice (log entry 4): the
first of those held ready, else the free word of the count of words drawn, for every value of it. -/
def Obligations.WordBitsComeLeastSignificantFirst : Prop :=
  ∀ b : BitStream, b.valid = 0 →
    ∃ w : Word, (∀ k < 32, b.bitAt k = w.getLsbD k)
      ∧ (BitStream.skip 32 b).valid = 0
      ∧ (BitStream.skip 32 b).rng = { queue := b.rng.queue.tail, drawn := b.rng.drawn + 1 }
      ∧ w = b.rng.queue.headD (Config.rngWord b.rng.drawn)

/-- A buffer that still holds bits is used up before a word is drawn: no random bit is discarded (42 R184). -/
def Obligations.NoRandomBitIsDiscarded : Prop :=
  ∀ (b : BitStream) (k : Nat), k ≤ b.valid.val →
    (BitStream.skip k b).rng = b.rng ∧ (BitStream.skip k b).valid.val = b.valid.val - k
    ∧ (k < b.valid.val → b.bitAt k = b.buf.getLsbD k)

/-- The walk (42 R185) and its bit cost (R189), in terms of the stream's bits and the matrix: it answers the row that is hit in
the first column with a hit, and is exhausted when no column has one. With the hit in column c the walk takes c + 1 bits and the
sample c + 2; both take KY_COLS bits when exhausted. `ColumnHit` is R185's hit: the distance is doubled, the column's bit is
added, and the first row from KY_ROWS-1 down at which it is -1 is hit. -/
def Obligations.SampleBitCost : Prop :=
  ∀ (q : Nat) (m : KyMatrix) (b : BitStream),
    (∀ c r : Nat, c < m.cols → ColumnHit m b c r → (∀ c' < c, ∀ r', ¬ ColumnHit m b c' r') →
      kyWalk m b = (some r, BitStream.skip (c + 1) b)
      ∧ ∃ v, sampleOne q m b = (some v, BitStream.skip (c + 2) b))
    ∧ ((∀ c < m.cols, ∀ r, ¬ ColumnHit m b c r) →
      kyWalk m b = (none, BitStream.skip m.cols b) ∧ sampleOne q m b = (none, BitStream.skip m.cols b))

/-- The sign fold (42 R186): after a hit a sign bit is drawn, 0 gives the magnitude, 1 gives q - m, and magnitude 0 gives 0 either
way; the result is in [0, q). After an exhausted walk none is drawn. -/
def Obligations.SignFold : Prop :=
  ∀ (p : ParamSet) (m : KyMatrix) (b : BitStream), p.KyOk m →
    (∀ r b', kyWalk m b = (some r, b') → ∃ v, sampleOne p.q m b = (some v, b'.nextBit.2) ∧ v < p.q
      ∧ v = if b'.nextBit.1 = true ∧ r ≠ 0 then p.q - r else r)
    ∧ (∀ b', kyWalk m b = (none, b') → sampleOne p.q m b = (none, b'))

/-- "A PMAT whose probabilities sum to exactly 1 and whose rows are exact finite expansions cannot be exhausted" (42 R187). -/
def Obligations.ExactMatrixIsNeverExhausted : Prop :=
  ∀ (m : KyMatrix) (b : BitStream), m.weight = 2 ^ m.cols → ∃ r b', kyWalk m b = (some r, b') ∧ r < m.rowCount

/-- Samples are drawn in order, each from the bits the one before left, and the first exhausted walk ends them (42 R191). -/
def Obligations.SamplesAreDrawnInOrder : Prop :=
  ∀ (q : Nat) (m : KyMatrix) (n : Nat) (b : BitStream),
    (∃ (vs : List Nat) (f : Nat → BitStream), sampleMany q m n b = (some vs, f n) ∧ vs.length = n ∧ f 0 = b
      ∧ ∀ i < n, sampleOne q m (f i) = (some (vs.getD i 0), f (i + 1)))
    ∨ (∃ (k : Nat) (f : Nat → BitStream), k < n ∧ sampleMany q m n b = (none, f (k + 1)) ∧ f 0 = b
      ∧ (∀ i < k, ∃ v, sampleOne q m (f i) = (some v, f (i + 1))) ∧ sampleOne q m (f k) = (none, f (k + 1)))

/-- SAMPLE1 completes: on success RESULT is the sample, on exhaustion RESULT is as before and KY_EXHAUSTED is latched; the
random bits the sampler used are used (42 R190). -/
def Obligations.Sample1WritesResultOrFails : Prop :=
  ∀ s : State, s.config.Valid → ∃ t, exec .sample1 s = .next t
    ∧ ((∃ v b, sampleOne s.q (s.config.ky s.pset) s.bits = (some v, b) ∧ t.result.toNat = v ∧ v < s.q ∧ t.bits = b
        ∧ s.SamePolys t ∧ s.Completed t ∧ s.SameSetup t)
      ∨ (∃ b, sampleOne s.q (s.config.ky s.pset) s.bits = (none, b) ∧ s.Exhausted t b))

/-- SAMPLE completes: on success P[rd] holds the N samples in the order drawn, on exhaustion P[rd] is as before and
KY_EXHAUSTED is latched; the random bits the sampler used are used (42 R191). -/
def Obligations.SampleWritesRingOrFails : Prop :=
  ∀ (rd : PReg) (s : State), s.config.Valid → ∃ t, exec (.sample rd) s = .next t
    ∧ ((∃ vs b, sampleMany s.q (s.config.ky s.pset) s.n s.bits = (some vs, b) ∧ t.bits = b
        ∧ (∀ i < s.n, t.coef rd i = vs.getD i 0 ∧ t.coef rd i < s.q) ∧ (∀ i, s.n ≤ i → t.coef rd i = s.coef rd i)
        ∧ s.SamePolysBut t rd ∧ t.result = s.result ∧ s.Completed t ∧ s.SameSetup t)
      ∨ (∃ b, sampleMany s.q (s.config.ky s.pset) s.n s.bits = (none, b) ∧ s.Exhausted t b))

/-! Every command -/

/-- Every command completes from every state: BUSY 0, DONE 1, and CFG, CTRL, X, PEND and the host are as before
(30_encoding R107, 10_state R42, R52). -/
def Obligations.EveryCommandCompletes : Prop :=
  ∀ (i : Instr) (s : State), ∃ t, exec i s = .next t ∧ t.busy = false ∧ t.done = true ∧ s.SameSetup t

/-! The register map (10_state, 20_memory) -/

/-- The POLY window holds P[k][i] at 0x1000 + k·0x800 + i·4, and conversely (10_state R46). -/
def Obligations.PolyWindowMap : Prop :=
  (∀ (k : PReg) (i : Index), regAt (0x1000 + k.val * 0x800 + i.val * 4) = .poly k i)
  ∧ (∀ off : Nat, 0x1000 ≤ off → off ≤ 0x4FFC → off % 4 = 0 → ∃ (k : PReg) (i : Index), regAt off = .poly k i
      ∧ k.val = (off - 0x1000) / 0x800 ∧ i.val = (off - 0x1000) % 0x800 / 4)

/-- Reserved offsets: "A word read there returns 0. A word write there is ignored and changes no state, busy or not"
(10_state R45). -/
def Obligations.ReservedOffsetsReadZeroAndIgnoreWrites : Prop :=
  ∀ (s : State) (off : Nat) (w : Word), off % 4 = 0 → (0x028 ≤ off ∧ off ≤ 0x0FFC) ∨ (0x5000 ≤ off ∧ off ≤ 0x7FFC) →
    busRead (s.config.baseAddr + off) .word s = .next { s with reads := s.reads ++ [0] }
    ∧ busWrite (s.config.baseAddr + off) .word w s = .next s

/-- Writes to ID, RESULT, PARAM_N and PARAM_Q are ignored (10_state R53). ID always reads 0x524C5745 (R34), CFG the code of the
parameter set, 0 or 1 (R35), CMD 0 (R41), busy or not; RESULT reads as it stands when not busy (R43). -/
def Obligations.ReadOnlyRegistersIgnoreWrites : Prop :=
  ∀ (s : State) (w : Word), busWrite s.config.baseAddr .word w s = .next s
    ∧ busWrite (s.config.baseAddr + 0x01C) .word w s = .next s
    ∧ busWrite (s.config.baseAddr + 0x020) .word w s = .next s
    ∧ busWrite (s.config.baseAddr + 0x024) .word w s = .next s
    ∧ busRead s.config.baseAddr .word s = .next { s with reads := s.reads ++ [0x524C5745] }
    ∧ busRead (s.config.baseAddr + 0x004) .word s
      = .next { s with reads := s.reads ++ [match s.pset with | .n256 => 0 | .n512 => 1] }
    ∧ busRead (s.config.baseAddr + 0x010) .word s = .next { s with reads := s.reads ++ [0] }
    ∧ (s.busy = false → busRead (s.config.baseAddr + 0x01C) .word s = .next { s with reads := s.reads ++ [s.result] })

/-- A host access in the window is a bus error exactly when it is not a 32-bit access to a word-aligned offset (20_memory R73, which
93 I1 asks a model to take as a fault). Outside the window an access is refused (93 I7); that it is refused whatever its size and
alignment, before either is looked at, is the model's reading (log entry 10). -/
def Obligations.BusErrorsAreTheBadAccesses : Prop :=
  ∀ (s : State) (addr : Nat) (size : AccessSize) (w : Word),
    let inside := s.config.baseAddr ≤ addr ∧ addr < s.config.baseAddr + 0x8000
    let good := size = .word ∧ (addr - s.config.baseAddr) % 4 = 0
    (¬ inside → busRead addr size s = .refused .outsideWindow ∧ busWrite addr size w s = .refused .outsideWindow)
    ∧ (inside → ¬ good → busRead addr size s = .fault .busError ∧ busWrite addr size w s = .fault .busError)
    ∧ (inside → good → (∃ t, busRead addr size s = .next t) ∧ ∃ t, busWrite addr size w s = .next t)

/-- The bits of a STATUS read (10_state R39), with the error codes of 60_exceptions R240. -/
def Obligations.StatusReadFields : Prop :=
  ∀ s : State, busRead (s.config.baseAddr + 0x00C) .word s = .next { s with reads := s.reads ++ [s.statusWord] }
    ∧ s.statusWord.getLsbD 0 = s.busy ∧ s.statusWord.getLsbD 1 = s.done ∧ s.statusWord.getLsbD 2 = s.configured
    ∧ s.statusWord.getLsbD 3 = false ∧ s.statusWord.extractLsb' 4 4 = (match s.err with
      | .none => 0 | .illegal => 1 | .config => 2 | .state => 3 | .busy => 4 | .kyExhausted => 5)
    ∧ s.statusWord.getLsbD 8 = (s.irqEn && (s.done || s.err != .none)) ∧ s.statusWord.extractLsb' 9 23 = 0

/-- A STATUS write clears DONE by bit 1 and ERR by bit 3, busy or not, and does nothing else (10_state R40). -/
def Obligations.StatusWriteClearsDoneAndErr : Prop :=
  ∀ (s : State) (w : Word), busWrite (s.config.baseAddr + 0x00C) .word w s
    = .next { s with done := s.done && !w.getLsbD 1, err := if w.getLsbD 3 = true then .none else s.err }

/-- A CTRL write sets IRQ_EN from bit 0, busy or not; the other bits are ignored and read 0; with IRQ_EN 0 the interrupt output is
not driven (10_state R38). -/
def Obligations.CtrlHoldsIrqEnable : Prop :=
  ∀ (s : State) (w : Word), busWrite (s.config.baseAddr + 0x008) .word w s = .next { s with irqEn := w.getLsbD 0 }
    ∧ busRead (s.config.baseAddr + 0x008) .word s
      = .next { s with reads := s.reads ++ [if s.irqEn then 1 else 0] }
    ∧ (s.irqEn = false → s.irq = false)

/-- A legal CFG write while idle selects the parameter set, code 0 or 1 in bits 1:0, sets CONFIGURED, and clears P, RESULT and the
KY buffer; nothing else changes (10_state R36). -/
def Obligations.LegalCfgWriteConfigures : Prop :=
  ∀ (s : State) (w : Word) (p : ParamSet), s.busy = false → w.extractLsb' 0 2 = (match p with | .n256 => 0 | .n512 => 1) →
    ∃ t, busWrite (s.config.baseAddr + 0x004) .word w s = .next t
      ∧ t.pset = p ∧ t.configured = true ∧ (∀ k i, t.coef k i = 0) ∧ t.result = 0 ∧ t.kyBuf = 0 ∧ t.kyValid = 0
      ∧ t.xLo = s.xLo ∧ t.xHi = s.xHi ∧ t.irqEn = s.irqEn ∧ t.busy = s.busy ∧ t.done = s.done ∧ t.err = s.err
      ∧ t.pend = s.pend ∧ s.SameEnv t

/-- A CFG write of code 2 or 3 while idle raises CONFIG and changes nothing else (10_state R37). -/
def Obligations.IllegalCfgWriteRaisesConfig : Prop :=
  ∀ (s : State) (w : Word), s.busy = false → w.getLsbD 1 = true →
    busWrite (s.config.baseAddr + 0x004) .word w s
      = .next { s with err := if s.err = .none then .config else s.err }

/-- PARAM_N and PARAM_Q read N and q of the current parameter set when configured, else 0, and ignore writes (10_state R44). -/
def Obligations.ParamReads : Prop :=
  ∀ s : State,
    busRead (s.config.baseAddr + 0x020) .word s = .next { s with
      reads := s.reads ++ [if s.configured = false then 0 else if s.pset = .n256 then 256 else 512] }
    ∧ busRead (s.config.baseAddr + 0x024) .word s = .next { s with
      reads := s.reads ++ [if s.configured = false then 0 else if s.pset = .n256 then 7681 else 12289] }
    ∧ ∀ w : Word, busWrite (s.config.baseAddr + 0x020) .word w s = .next s
      ∧ busWrite (s.config.baseAddr + 0x024) .word w s = .next s

/-- X_LO and X_HI hold what was last written while idle (10_state R42). -/
def Obligations.XHoldsWhatWasWritten : Prop :=
  ∀ (s : State) (w : Word), s.busy = false →
    busWrite (s.config.baseAddr + 0x014) .word w s = .next { s with xLo := w }
    ∧ busWrite (s.config.baseAddr + 0x018) .word w s = .next { s with xHi := w }
    ∧ busRead (s.config.baseAddr + 0x014) .word s = .next { s with reads := s.reads ++ [s.xLo] }
    ∧ busRead (s.config.baseAddr + 0x018) .word s = .next { s with reads := s.reads ++ [s.xHi] }

/-- A POLY-window read while not busy (10_state R47). -/
def Obligations.PolyWindowRead : Prop :=
  ∀ (s : State) (k : PReg) (i : Index), s.busy = false →
    ∃ v : Word, busRead (s.config.baseAddr + 0x1000 + k.val * 0x800 + i.val * 4) .word s
        = .next { s with reads := s.reads ++ [v] }
      ∧ v.toNat = if s.configured = false then 0 else if s.n ≤ i.val then 0 else s.coef k i.val

/-- A POLY-window write while not busy: STATE when unconfigured, nothing from N on, else the signed word mod q is stored
(10_state R48). -/
def Obligations.PolyWindowWrite : Prop :=
  ∀ (s : State) (k : PReg) (i : Index) (w : Word), s.busy = false →
    ∃ t, busWrite (s.config.baseAddr + 0x1000 + k.val * 0x800 + i.val * 4) .word w s = .next t
      ∧ (s.configured = false → t = { s with err := if s.err = .none then .state else s.err })
      ∧ (s.configured = true → s.n ≤ i.val → t = s)
      ∧ (s.configured = true → i.val < s.n → (t.coef k i.val : Int) = w.toInt % s.q
        ∧ (∀ (j : PReg) (l : Nat), (j ≠ k ∨ l ≠ i.val) → t.coef j l = s.coef j l) ∧ t = { s with polys := t.polys })

/-- Command issue: the three rejections in their order and the acceptance, with nothing else changed (30_encoding R106). -/
def Obligations.CommandIssue : Prop :=
  ∀ (s : State) (w : Word),
    let issued := busWrite (s.config.baseAddr + 0x010) .word w s
    let latched := fun c : ErrCode => if s.err = .none then c else s.err
    (s.busy = true → issued = .next { s with err := latched .busy })
    ∧ (s.busy = false → (∀ i, decode w ≠ .ok i) → issued = .next { s with done := true, err := latched .illegal })
    ∧ (s.busy = false → (∃ i, decode w = .ok i) → s.configured = false →
        issued = .next { s with done := true, err := latched .state })
    ∧ (s.busy = false → (∃ i, decode w = .ok i) → s.configured = true →
        issued = .next { s with pend := w, busy := true, done := false })

/-- While BUSY, a write to CFG, CMD, X_LO, X_HI or the POLY window is dropped: the latch of BUSY is all that changes, DONE and
the command in flight included (60_exceptions R243). -/
def Obligations.BusyDropsWrites : Prop :=
  ∀ (s : State) (off : Nat) (w : Word), s.busy = true → off % 4 = 0 →
    (off = 0x004 ∨ off = 0x010 ∨ off = 0x014 ∨ off = 0x018 ∨ (0x1000 ≤ off ∧ off ≤ 0x4FFC)) →
    busWrite (s.config.baseAddr + off) .word w s = .next { s with err := if s.err = .none then .busy else s.err }

/-- While BUSY, a read of RESULT or of the POLY window answers some word and changes no state of the block, and the reads of the
other registers are as when idle (20_memory R80). The word is the model's free value, and the statement holds for every one. -/
def Obligations.BusyReads : Prop :=
  ∀ (s : State) (off : Nat), s.busy = true → off % 4 = 0 → off ≤ 0x7FFC →
    ((off = 0x01C ∨ (0x1000 ≤ off ∧ off ≤ 0x4FFC)) →
      ∃ v, busRead (s.config.baseAddr + off) .word s
        = .next { s with reads := s.reads ++ [v], freeReads := s.freeReads + 1 })
    ∧ (off ≠ 0x01C → off < 0x1000 ∨ 0x4FFC < off → off ≠ 0x00C →
      ∃ v, busRead (s.config.baseAddr + off) .word s = .next { s with reads := s.reads ++ [v] }
        ∧ busRead (s.config.baseAddr + off) .word { s with busy := false }
          = .next { s with busy := false, reads := s.reads ++ [v] })

/-! Errors and the interrupt (60_exceptions, 10_state) -/

/-- The latch (60_exceptions R244): ERR takes the code when it is 0 and nothing else changes; when it is not 0
the code is not recorded, but a rejection's DONE still happens; a STATUS write with bit 3 and
reset clear it. -/
def Obligations.ErrorLatch : Prop :=
  ∀ (s : State) (c : ErrCode) (w : Word),
    (s.err = .none → s.raise c = { s with err := c }) ∧ (s.err ≠ .none → s.raise c = s)
    ∧ (s.err ≠ .none → (s.reject c).err = s.err ∧ (s.reject c).done = true)
    ∧ (w.getLsbD 3 = true → (s.clearStatus w).err = .none) ∧ s.resetBlock.err = .none

/-- The interrupt output (10_state R51), and how a handler takes it away: a STATUS write with bits 1 and 3 (60_exceptions R251). -/
def Obligations.InterruptLevel : Prop :=
  ∀ s : State, (s.irq = true ↔ s.irqEn = true ∧ (s.done = true ∨ s.err ≠ .none))
    ∧ (s.clearStatus 0x0000000A).irq = false

/-! Reset (70_reset_and_hazards) -/

/-- A reset, from any state, in flight or not: every item of 10_state R54 is 0 (70 R270). -/
def Obligations.ResetClearsTheBlock : Prop :=
  ∀ s : State, s.agent = .reset → ∃ t, step s = .next t
    ∧ t.pset = .n256 ∧ t.configured = false ∧ t.busy = false ∧ t.done = false ∧ t.err = .none ∧ t.irqEn = false
    ∧ t.xLo = 0 ∧ t.xHi = 0 ∧ t.result = 0 ∧ (∀ k i, t.coef k i = 0) ∧ t.kyBuf = 0 ∧ t.kyValid = 0 ∧ t.pend = 0
    ∧ t.irq = false

/-- The reset state of every allowed configuration meets the invariant (10_state R32, R43, R49, R54). -/
def Obligations.ResetMeetsTheInvariant : Prop :=
  ∀ c : Config, c.Valid → (State.resetWith c).Inv

/-! The machine -/

/-- The ENGINE's turn with a command in flight runs the decoded command in the state with the turn taken off the schedule; a
step adds nothing else, the block having no program counter (30_encoding R107, 10_state R30). -/
def Obligations.EngineStepRunsTheDecodedCommand : Prop :=
  ∀ (s : State) (i : Instr), s.agent = .engine → s.busy = true → decode s.pend = .ok i →
    step s = exec i { s with turns := s.turns.tail }

/-- The HOST's turn performs its next transaction, in program order (20_memory R81, 00_scope R12). -/
def Obligations.HostStepRunsTheNextTransaction : Prop :=
  ∀ (s : State) (rest : List HostOp) (a : Nat) (z : AccessSize) (v : Word), s.agent = .host →
    (s.host = .read a z :: rest → step s = busRead a z { s with turns := s.turns.tail, host := rest })
    ∧ (s.host = .write a z v :: rest → step s = busWrite a z v { s with turns := s.turns.tail, host := rest })
    ∧ (s.host = .wait :: rest → step s = .next { s with
        turns := s.turns.tail, host := if s.busy = true then s.host else rest })

/-- Every step keeps the invariant, whatever agent moves: the polynomial registers (10_state R32), the range of RESULT (R43),
the random-bit buffer (R49), and that a command in flight is a legal one of a configured block (30_encoding R106). -/
def Obligations.EveryStepKeepsTheInvariant : Prop :=
  ∀ s t : State, s.Inv → step s = .next t → t.Inv

/-- "No command or bus write can change one": the parameters of the block (00_scope R8). -/
def Obligations.ParametersNeverChange : Prop :=
  ∀ s t : State, step s = .next t → t.config = s.config

/-- While a command is in flight the host changes none of its inputs nor the command itself (70 R275, 20_memory R80). -/
def Obligations.BusyFreezesTheInputs : Prop :=
  ∀ s t : State, s.agent = .host → s.busy = true → step s = .next t →
    t.busy = true ∧ t.pend = s.pend ∧ t.pset = s.pset ∧ t.configured = s.configured ∧ t.xLo = s.xLo ∧ t.xHi = s.xHi
    ∧ t.polys = s.polys ∧ t.result = s.result ∧ s.SameBits t ∧ (t.done = true → s.done = true)

/-- Only a REDUCE, a SAMPLE1, a legal CFG write and reset write RESULT (10_state R43). -/
def Obligations.OnlyFourThingsWriteResult : Prop :=
  ∀ s t : State, step s = .next t → t.result ≠ s.result →
    s.agent = .reset
    ∨ (s.agent = .engine ∧ s.busy = true ∧ (decode s.pend = .ok .reduce ∨ decode s.pend = .ok .sample1))
    ∨ (s.agent = .host ∧ s.busy = false ∧ t.configured = true
      ∧ ∃ z v rest, s.host = .write (s.config.baseAddr + 0x004) z v :: rest ∧ v.getLsbD 1 = false)

/-- Only a sampling command, a legal CFG write and reset change the random-bit buffer (10_state R49). -/
def Obligations.OnlySamplingTakesRandomBits : Prop :=
  ∀ s t : State, step s = .next t → t.kyBuf ≠ s.kyBuf ∨ t.kyValid ≠ s.kyValid →
    s.agent = .reset
    ∨ (s.agent = .engine ∧ s.busy = true ∧ (decode s.pend = .ok .sample1 ∨ ∃ rd, decode s.pend = .ok (.sample rd)))
    ∨ (s.agent = .host ∧ s.busy = false
      ∧ ∃ z v rest, s.host = .write (s.config.baseAddr + 0x004) z v :: rest ∧ v.getLsbD 1 = false)

/-- CONFIGURED is cleared by reset alone, and BUSY by a completion or reset alone (10_state R52). -/
def Obligations.WhoClearsTheFlags : Prop :=
  ∀ s t : State, step s = .next t →
    (s.configured = true → t.configured = false → s.agent = .reset)
    ∧ (s.busy = true → t.busy = false → s.agent = .reset ∨ s.agent = .engine)

/-- Only reset changes the block without a host access or a completion: a turn of an ENGINE with nothing in flight, or of a HOST
with nothing to do, only passes (60_exceptions R257). -/
def Obligations.IdleTurnsChangeNothing : Prop :=
  ∀ s : State, (s.agent = .engine ∧ s.busy = false) ∨ (s.agent = .host ∧ s.host = []) →
    step s = .next { s with turns := s.turns.tail }

/-- An accepted command completes at the ENGINE's next turn (30_encoding R107, 70 R281): the turn never faults or refuses. -/
def Obligations.CommandInFlightCompletes : Prop :=
  ∀ s : State, s.PendInv → s.busy = true → s.agent = .engine → ∃ t, step s = .next t ∧ t.busy = false ∧ t.done = true
end

