-- ==== Sys2Proof/Laws/Arith.lean ====
section
/-! SUPPORT. The modular reduction is the mathematical remainder (40 R130), and the model's sums are Mathlib's. -/

namespace Sys2Proof.Machine

theorem ParamSet.q_pos (p : ParamSet) : 0 < p.q := by cases p <;> decide

theorem ParamSet.q_lt (p : ParamSet) : p.q < 2 ^ 14 := by cases p <;> decide

theorem ParamSet.n_le (p : ParamSet) : p.n ≤ 512 := by cases p <;> decide

/-- The compensated truncated division is the non-negative remainder (40 R130). -/
theorem reduceQ_eq_emod {q : Nat} (hq : 0 < q) (x : Int) : (reduceQ q x : Int) = x % q := by
  have hq' : (0 : Int) < q := by exact_mod_cast hq
  have hr : x - q * Int.tdiv x q = Int.tmod x q := by rw [Int.tmod_def]
  have hmod := Int.tmod_eq_emod (a := x) (b := q)
  have hlo := Int.emod_nonneg x hq'.ne'
  have hhi := Int.emod_lt_of_pos x hq'
  simp only [reduceQ, hr]
  rw [hmod]
  split
  · simp; omega
  · rename_i h
    simp only [not_or] at h
    have hx : x % q ≠ 0 := fun h0 => h.2 (Int.dvd_of_emod_eq_zero h0)
    simp only [Int.natAbs_natCast]
    rw [if_pos (by omega)]
    omega

theorem reduceQ_lt {q : Nat} (hq : 0 < q) (x : Int) : reduceQ q x < q := by
  have h := reduceQ_eq_emod hq x
  have := Int.emod_lt_of_pos x (show (0 : Int) < q by exact_mod_cast hq)
  omega

/-- On a natural number the reduction is the remainder of natural numbers. -/
theorem reduceQ_natCast {q : Nat} (hq : 0 < q) (x : Nat) : reduceQ q x = x % q := by
  have h := reduceQ_eq_emod hq (x : Int)
  exact_mod_cast h

theorem sumTo_eq_sum (n : Nat) (f : Nat → Nat) : sumTo n f = ∑ j ∈ Finset.range n, f j := by
  induction n with
  | zero => rfl
  | succ n ih => rw [sumTo, ih, Finset.sum_range_succ]

end Sys2Proof.Machine
end

