-- ==== Sys2Proof/Laws/PerInstr.lean ====
section
/-! SUPPORT. For each command: its encoding is a word that its own row of the opcode map selects (30_encoding R103). -/

namespace Sys2Proof.Laws.RowMatch

/-- The row of the opcode map that stands for the command selects the command's encoding. -/
def Statement (i : Instr) : Prop :=
  ∃ r ∈ opcodeRows, r.mnemonic = i.mnemonic ∧ r.selects (encode i) = true

theorem reduce : Statement .reduce := ⟨⟨.reduce, 0x00000001, 0xFFFFFFFF⟩, by decide, rfl, by decide⟩

theorem sample1 : Statement .sample1 := ⟨⟨.sample1, 0x00000002, 0xFFFFFFFF⟩, by decide, rfl, by decide⟩

theorem nttFwd (rd ra : PReg) : Statement (.nttFwd rd ra) :=
  ⟨⟨.nttFwd, 0x00000010, 0xFFFF88FF⟩, by decide, rfl, by revert rd ra; decide +kernel⟩

theorem nttInv (rd ra : PReg) : Statement (.nttInv rd ra) :=
  ⟨⟨.nttInv, 0x00000011, 0xFFFF88FF⟩, by decide, rfl, by revert rd ra; decide +kernel⟩

theorem rearrange (rd ra : PReg) : Statement (.rearrange rd ra) :=
  ⟨⟨.rearrange, 0x00000012, 0xFFFF88FF⟩, by decide, rfl, by revert rd ra; decide +kernel⟩

theorem padd (rd ra rb : PReg) : Statement (.padd rd ra rb) :=
  ⟨⟨.padd, 0x00000020, 0xFFF888FF⟩, by decide, rfl, by revert rd ra rb; decide +kernel⟩

theorem psub (rd ra rb : PReg) : Statement (.psub rd ra rb) :=
  ⟨⟨.psub, 0x00000021, 0xFFF888FF⟩, by decide, rfl, by revert rd ra rb; decide +kernel⟩

theorem pmul (rd ra rb : PReg) : Statement (.pmul rd ra rb) :=
  ⟨⟨.pmul, 0x00000022, 0xFFF888FF⟩, by decide, rfl, by revert rd ra rb; decide +kernel⟩

theorem sample (rd : PReg) : Statement (.sample rd) :=
  ⟨⟨.sample, 0x00000030, 0xFFFFF8FF⟩, by decide, rfl, by revert rd; decide +kernel⟩

end Sys2Proof.Laws.RowMatch
end

