-- ==== Sys2Proof/Laws/State.lean ====
section
/-! SUPPORT. For each named update of the state, one lemma for each field: what the field is after the update. -/

namespace Sys2Proof.Machine


/-! `State.raise` -/

@[simp] theorem State.raise_config (c : ErrCode) (s : State) : (State.raise c s).config = s.config := by
  unfold State.raise
  split <;> rfl
@[simp] theorem State.raise_pset (c : ErrCode) (s : State) : (State.raise c s).pset = s.pset := by
  unfold State.raise
  split <;> rfl
@[simp] theorem State.raise_configured (c : ErrCode) (s : State) : (State.raise c s).configured = s.configured := by
  unfold State.raise
  split <;> rfl
@[simp] theorem State.raise_busy (c : ErrCode) (s : State) : (State.raise c s).busy = s.busy := by
  unfold State.raise
  split <;> rfl
@[simp] theorem State.raise_done (c : ErrCode) (s : State) : (State.raise c s).done = s.done := by
  unfold State.raise
  split <;> rfl
@[simp] theorem State.raise_err (c : ErrCode) (s : State) : (State.raise c s).err = if s.err = .none then c else s.err := by
  unfold State.raise
  split <;> rfl
@[simp] theorem State.raise_irqEn (c : ErrCode) (s : State) : (State.raise c s).irqEn = s.irqEn := by
  unfold State.raise
  split <;> rfl
@[simp] theorem State.raise_xLo (c : ErrCode) (s : State) : (State.raise c s).xLo = s.xLo := by
  unfold State.raise
  split <;> rfl
@[simp] theorem State.raise_xHi (c : ErrCode) (s : State) : (State.raise c s).xHi = s.xHi := by
  unfold State.raise
  split <;> rfl
@[simp] theorem State.raise_result (c : ErrCode) (s : State) : (State.raise c s).result = s.result := by
  unfold State.raise
  split <;> rfl
@[simp] theorem State.raise_polys (c : ErrCode) (s : State) : (State.raise c s).polys = s.polys := by
  unfold State.raise
  split <;> rfl
@[simp] theorem State.raise_kyBuf (c : ErrCode) (s : State) : (State.raise c s).kyBuf = s.kyBuf := by
  unfold State.raise
  split <;> rfl
@[simp] theorem State.raise_kyValid (c : ErrCode) (s : State) : (State.raise c s).kyValid = s.kyValid := by
  unfold State.raise
  split <;> rfl
@[simp] theorem State.raise_pend (c : ErrCode) (s : State) : (State.raise c s).pend = s.pend := by
  unfold State.raise
  split <;> rfl
@[simp] theorem State.raise_rng (c : ErrCode) (s : State) : (State.raise c s).rng = s.rng := by
  unfold State.raise
  split <;> rfl
@[simp] theorem State.raise_freeReads (c : ErrCode) (s : State) : (State.raise c s).freeReads = s.freeReads := by
  unfold State.raise
  split <;> rfl
@[simp] theorem State.raise_host (c : ErrCode) (s : State) : (State.raise c s).host = s.host := by
  unfold State.raise
  split <;> rfl
@[simp] theorem State.raise_turns (c : ErrCode) (s : State) : (State.raise c s).turns = s.turns := by
  unfold State.raise
  split <;> rfl
@[simp] theorem State.raise_reads (c : ErrCode) (s : State) : (State.raise c s).reads = s.reads := by
  unfold State.raise
  split <;> rfl

/-! `State.clearStatus` -/

@[simp] theorem State.clearStatus_config (w : Word) (s : State) : (State.clearStatus w s).config = s.config := rfl
@[simp] theorem State.clearStatus_pset (w : Word) (s : State) : (State.clearStatus w s).pset = s.pset := rfl
@[simp] theorem State.clearStatus_configured (w : Word) (s : State) : (State.clearStatus w s).configured = s.configured := rfl
@[simp] theorem State.clearStatus_busy (w : Word) (s : State) : (State.clearStatus w s).busy = s.busy := rfl
@[simp] theorem State.clearStatus_done (w : Word) (s : State) : (State.clearStatus w s).done = if w.getLsbD 1 then false else s.done := rfl
@[simp] theorem State.clearStatus_err (w : Word) (s : State) : (State.clearStatus w s).err = if w.getLsbD 3 then .none else s.err := rfl
@[simp] theorem State.clearStatus_irqEn (w : Word) (s : State) : (State.clearStatus w s).irqEn = s.irqEn := rfl
@[simp] theorem State.clearStatus_xLo (w : Word) (s : State) : (State.clearStatus w s).xLo = s.xLo := rfl
@[simp] theorem State.clearStatus_xHi (w : Word) (s : State) : (State.clearStatus w s).xHi = s.xHi := rfl
@[simp] theorem State.clearStatus_result (w : Word) (s : State) : (State.clearStatus w s).result = s.result := rfl
@[simp] theorem State.clearStatus_polys (w : Word) (s : State) : (State.clearStatus w s).polys = s.polys := rfl
@[simp] theorem State.clearStatus_kyBuf (w : Word) (s : State) : (State.clearStatus w s).kyBuf = s.kyBuf := rfl
@[simp] theorem State.clearStatus_kyValid (w : Word) (s : State) : (State.clearStatus w s).kyValid = s.kyValid := rfl
@[simp] theorem State.clearStatus_pend (w : Word) (s : State) : (State.clearStatus w s).pend = s.pend := rfl
@[simp] theorem State.clearStatus_rng (w : Word) (s : State) : (State.clearStatus w s).rng = s.rng := rfl
@[simp] theorem State.clearStatus_freeReads (w : Word) (s : State) : (State.clearStatus w s).freeReads = s.freeReads := rfl
@[simp] theorem State.clearStatus_host (w : Word) (s : State) : (State.clearStatus w s).host = s.host := rfl
@[simp] theorem State.clearStatus_turns (w : Word) (s : State) : (State.clearStatus w s).turns = s.turns := rfl
@[simp] theorem State.clearStatus_reads (w : Word) (s : State) : (State.clearStatus w s).reads = s.reads := rfl

/-! `State.setPoly` -/

@[simp] theorem State.setPoly_config (k : PReg) (a : Poly) (s : State) : (State.setPoly s k a).config = s.config := rfl
@[simp] theorem State.setPoly_pset (k : PReg) (a : Poly) (s : State) : (State.setPoly s k a).pset = s.pset := rfl
@[simp] theorem State.setPoly_configured (k : PReg) (a : Poly) (s : State) : (State.setPoly s k a).configured = s.configured := rfl
@[simp] theorem State.setPoly_busy (k : PReg) (a : Poly) (s : State) : (State.setPoly s k a).busy = s.busy := rfl
@[simp] theorem State.setPoly_done (k : PReg) (a : Poly) (s : State) : (State.setPoly s k a).done = s.done := rfl
@[simp] theorem State.setPoly_err (k : PReg) (a : Poly) (s : State) : (State.setPoly s k a).err = s.err := rfl
@[simp] theorem State.setPoly_irqEn (k : PReg) (a : Poly) (s : State) : (State.setPoly s k a).irqEn = s.irqEn := rfl
@[simp] theorem State.setPoly_xLo (k : PReg) (a : Poly) (s : State) : (State.setPoly s k a).xLo = s.xLo := rfl
@[simp] theorem State.setPoly_xHi (k : PReg) (a : Poly) (s : State) : (State.setPoly s k a).xHi = s.xHi := rfl
@[simp] theorem State.setPoly_result (k : PReg) (a : Poly) (s : State) : (State.setPoly s k a).result = s.result := rfl
@[simp] theorem State.setPoly_polys (k : PReg) (a : Poly) (s : State) : (State.setPoly s k a).polys = s.polys.set k a := rfl
@[simp] theorem State.setPoly_kyBuf (k : PReg) (a : Poly) (s : State) : (State.setPoly s k a).kyBuf = s.kyBuf := rfl
@[simp] theorem State.setPoly_kyValid (k : PReg) (a : Poly) (s : State) : (State.setPoly s k a).kyValid = s.kyValid := rfl
@[simp] theorem State.setPoly_pend (k : PReg) (a : Poly) (s : State) : (State.setPoly s k a).pend = s.pend := rfl
@[simp] theorem State.setPoly_rng (k : PReg) (a : Poly) (s : State) : (State.setPoly s k a).rng = s.rng := rfl
@[simp] theorem State.setPoly_freeReads (k : PReg) (a : Poly) (s : State) : (State.setPoly s k a).freeReads = s.freeReads := rfl
@[simp] theorem State.setPoly_host (k : PReg) (a : Poly) (s : State) : (State.setPoly s k a).host = s.host := rfl
@[simp] theorem State.setPoly_turns (k : PReg) (a : Poly) (s : State) : (State.setPoly s k a).turns = s.turns := rfl
@[simp] theorem State.setPoly_reads (k : PReg) (a : Poly) (s : State) : (State.setPoly s k a).reads = s.reads := rfl

/-! `State.setRing` -/

@[simp] theorem State.setRing_config (k : PReg) (f : Nat → Nat) (s : State) : (State.setRing s k f).config = s.config := rfl
@[simp] theorem State.setRing_pset (k : PReg) (f : Nat → Nat) (s : State) : (State.setRing s k f).pset = s.pset := rfl
@[simp] theorem State.setRing_configured (k : PReg) (f : Nat → Nat) (s : State) : (State.setRing s k f).configured = s.configured := rfl
@[simp] theorem State.setRing_busy (k : PReg) (f : Nat → Nat) (s : State) : (State.setRing s k f).busy = s.busy := rfl
@[simp] theorem State.setRing_done (k : PReg) (f : Nat → Nat) (s : State) : (State.setRing s k f).done = s.done := rfl
@[simp] theorem State.setRing_err (k : PReg) (f : Nat → Nat) (s : State) : (State.setRing s k f).err = s.err := rfl
@[simp] theorem State.setRing_irqEn (k : PReg) (f : Nat → Nat) (s : State) : (State.setRing s k f).irqEn = s.irqEn := rfl
@[simp] theorem State.setRing_xLo (k : PReg) (f : Nat → Nat) (s : State) : (State.setRing s k f).xLo = s.xLo := rfl
@[simp] theorem State.setRing_xHi (k : PReg) (f : Nat → Nat) (s : State) : (State.setRing s k f).xHi = s.xHi := rfl
@[simp] theorem State.setRing_result (k : PReg) (f : Nat → Nat) (s : State) : (State.setRing s k f).result = s.result := rfl
@[simp] theorem State.setRing_polys (k : PReg) (f : Nat → Nat) (s : State) : (State.setRing s k f).polys = s.polys.set k (Poly.setLanes s.polys[k] s.n f) := rfl
@[simp] theorem State.setRing_kyBuf (k : PReg) (f : Nat → Nat) (s : State) : (State.setRing s k f).kyBuf = s.kyBuf := rfl
@[simp] theorem State.setRing_kyValid (k : PReg) (f : Nat → Nat) (s : State) : (State.setRing s k f).kyValid = s.kyValid := rfl
@[simp] theorem State.setRing_pend (k : PReg) (f : Nat → Nat) (s : State) : (State.setRing s k f).pend = s.pend := rfl
@[simp] theorem State.setRing_rng (k : PReg) (f : Nat → Nat) (s : State) : (State.setRing s k f).rng = s.rng := rfl
@[simp] theorem State.setRing_freeReads (k : PReg) (f : Nat → Nat) (s : State) : (State.setRing s k f).freeReads = s.freeReads := rfl
@[simp] theorem State.setRing_host (k : PReg) (f : Nat → Nat) (s : State) : (State.setRing s k f).host = s.host := rfl
@[simp] theorem State.setRing_turns (k : PReg) (f : Nat → Nat) (s : State) : (State.setRing s k f).turns = s.turns := rfl
@[simp] theorem State.setRing_reads (k : PReg) (f : Nat → Nat) (s : State) : (State.setRing s k f).reads = s.reads := rfl

/-! `State.withBits` -/

@[simp] theorem State.withBits_config (b : BitStream) (s : State) : (State.withBits s b).config = s.config := rfl
@[simp] theorem State.withBits_pset (b : BitStream) (s : State) : (State.withBits s b).pset = s.pset := rfl
@[simp] theorem State.withBits_configured (b : BitStream) (s : State) : (State.withBits s b).configured = s.configured := rfl
@[simp] theorem State.withBits_busy (b : BitStream) (s : State) : (State.withBits s b).busy = s.busy := rfl
@[simp] theorem State.withBits_done (b : BitStream) (s : State) : (State.withBits s b).done = s.done := rfl
@[simp] theorem State.withBits_err (b : BitStream) (s : State) : (State.withBits s b).err = s.err := rfl
@[simp] theorem State.withBits_irqEn (b : BitStream) (s : State) : (State.withBits s b).irqEn = s.irqEn := rfl
@[simp] theorem State.withBits_xLo (b : BitStream) (s : State) : (State.withBits s b).xLo = s.xLo := rfl
@[simp] theorem State.withBits_xHi (b : BitStream) (s : State) : (State.withBits s b).xHi = s.xHi := rfl
@[simp] theorem State.withBits_result (b : BitStream) (s : State) : (State.withBits s b).result = s.result := rfl
@[simp] theorem State.withBits_polys (b : BitStream) (s : State) : (State.withBits s b).polys = s.polys := rfl
@[simp] theorem State.withBits_kyBuf (b : BitStream) (s : State) : (State.withBits s b).kyBuf = b.buf := rfl
@[simp] theorem State.withBits_kyValid (b : BitStream) (s : State) : (State.withBits s b).kyValid = b.valid := rfl
@[simp] theorem State.withBits_pend (b : BitStream) (s : State) : (State.withBits s b).pend = s.pend := rfl
@[simp] theorem State.withBits_rng (b : BitStream) (s : State) : (State.withBits s b).rng = b.rng := rfl
@[simp] theorem State.withBits_freeReads (b : BitStream) (s : State) : (State.withBits s b).freeReads = s.freeReads := rfl
@[simp] theorem State.withBits_host (b : BitStream) (s : State) : (State.withBits s b).host = s.host := rfl
@[simp] theorem State.withBits_turns (b : BitStream) (s : State) : (State.withBits s b).turns = s.turns := rfl
@[simp] theorem State.withBits_reads (b : BitStream) (s : State) : (State.withBits s b).reads = s.reads := rfl

/-! `State.complete` -/

@[simp] theorem State.complete_config (s : State) : (State.complete s).config = s.config := rfl
@[simp] theorem State.complete_pset (s : State) : (State.complete s).pset = s.pset := rfl
@[simp] theorem State.complete_configured (s : State) : (State.complete s).configured = s.configured := rfl
@[simp] theorem State.complete_busy (s : State) : (State.complete s).busy = false := rfl
@[simp] theorem State.complete_done (s : State) : (State.complete s).done = true := rfl
@[simp] theorem State.complete_err (s : State) : (State.complete s).err = s.err := rfl
@[simp] theorem State.complete_irqEn (s : State) : (State.complete s).irqEn = s.irqEn := rfl
@[simp] theorem State.complete_xLo (s : State) : (State.complete s).xLo = s.xLo := rfl
@[simp] theorem State.complete_xHi (s : State) : (State.complete s).xHi = s.xHi := rfl
@[simp] theorem State.complete_result (s : State) : (State.complete s).result = s.result := rfl
@[simp] theorem State.complete_polys (s : State) : (State.complete s).polys = s.polys := rfl
@[simp] theorem State.complete_kyBuf (s : State) : (State.complete s).kyBuf = s.kyBuf := rfl
@[simp] theorem State.complete_kyValid (s : State) : (State.complete s).kyValid = s.kyValid := rfl
@[simp] theorem State.complete_pend (s : State) : (State.complete s).pend = s.pend := rfl
@[simp] theorem State.complete_rng (s : State) : (State.complete s).rng = s.rng := rfl
@[simp] theorem State.complete_freeReads (s : State) : (State.complete s).freeReads = s.freeReads := rfl
@[simp] theorem State.complete_host (s : State) : (State.complete s).host = s.host := rfl
@[simp] theorem State.complete_turns (s : State) : (State.complete s).turns = s.turns := rfl
@[simp] theorem State.complete_reads (s : State) : (State.complete s).reads = s.reads := rfl

/-! `State.accept` -/

@[simp] theorem State.accept_config (w : Word) (s : State) : (State.accept w s).config = s.config := rfl
@[simp] theorem State.accept_pset (w : Word) (s : State) : (State.accept w s).pset = s.pset := rfl
@[simp] theorem State.accept_configured (w : Word) (s : State) : (State.accept w s).configured = s.configured := rfl
@[simp] theorem State.accept_busy (w : Word) (s : State) : (State.accept w s).busy = true := rfl
@[simp] theorem State.accept_done (w : Word) (s : State) : (State.accept w s).done = false := rfl
@[simp] theorem State.accept_err (w : Word) (s : State) : (State.accept w s).err = s.err := rfl
@[simp] theorem State.accept_irqEn (w : Word) (s : State) : (State.accept w s).irqEn = s.irqEn := rfl
@[simp] theorem State.accept_xLo (w : Word) (s : State) : (State.accept w s).xLo = s.xLo := rfl
@[simp] theorem State.accept_xHi (w : Word) (s : State) : (State.accept w s).xHi = s.xHi := rfl
@[simp] theorem State.accept_result (w : Word) (s : State) : (State.accept w s).result = s.result := rfl
@[simp] theorem State.accept_polys (w : Word) (s : State) : (State.accept w s).polys = s.polys := rfl
@[simp] theorem State.accept_kyBuf (w : Word) (s : State) : (State.accept w s).kyBuf = s.kyBuf := rfl
@[simp] theorem State.accept_kyValid (w : Word) (s : State) : (State.accept w s).kyValid = s.kyValid := rfl
@[simp] theorem State.accept_pend (w : Word) (s : State) : (State.accept w s).pend = w := rfl
@[simp] theorem State.accept_rng (w : Word) (s : State) : (State.accept w s).rng = s.rng := rfl
@[simp] theorem State.accept_freeReads (w : Word) (s : State) : (State.accept w s).freeReads = s.freeReads := rfl
@[simp] theorem State.accept_host (w : Word) (s : State) : (State.accept w s).host = s.host := rfl
@[simp] theorem State.accept_turns (w : Word) (s : State) : (State.accept w s).turns = s.turns := rfl
@[simp] theorem State.accept_reads (w : Word) (s : State) : (State.accept w s).reads = s.reads := rfl

/-! `State.reject` -/

@[simp] theorem State.reject_config (c : ErrCode) (s : State) : (State.reject c s).config = s.config := by
  unfold State.reject State.raise
  split <;> rfl
@[simp] theorem State.reject_pset (c : ErrCode) (s : State) : (State.reject c s).pset = s.pset := by
  unfold State.reject State.raise
  split <;> rfl
@[simp] theorem State.reject_configured (c : ErrCode) (s : State) : (State.reject c s).configured = s.configured := by
  unfold State.reject State.raise
  split <;> rfl
@[simp] theorem State.reject_busy (c : ErrCode) (s : State) : (State.reject c s).busy = s.busy := by
  unfold State.reject State.raise
  split <;> rfl
@[simp] theorem State.reject_done (c : ErrCode) (s : State) : (State.reject c s).done = true := by
  unfold State.reject State.raise
  split <;> rfl
@[simp] theorem State.reject_err (c : ErrCode) (s : State) : (State.reject c s).err = if s.err = .none then c else s.err := by
  unfold State.reject State.raise
  split <;> rfl
@[simp] theorem State.reject_irqEn (c : ErrCode) (s : State) : (State.reject c s).irqEn = s.irqEn := by
  unfold State.reject State.raise
  split <;> rfl
@[simp] theorem State.reject_xLo (c : ErrCode) (s : State) : (State.reject c s).xLo = s.xLo := by
  unfold State.reject State.raise
  split <;> rfl
@[simp] theorem State.reject_xHi (c : ErrCode) (s : State) : (State.reject c s).xHi = s.xHi := by
  unfold State.reject State.raise
  split <;> rfl
@[simp] theorem State.reject_result (c : ErrCode) (s : State) : (State.reject c s).result = s.result := by
  unfold State.reject State.raise
  split <;> rfl
@[simp] theorem State.reject_polys (c : ErrCode) (s : State) : (State.reject c s).polys = s.polys := by
  unfold State.reject State.raise
  split <;> rfl
@[simp] theorem State.reject_kyBuf (c : ErrCode) (s : State) : (State.reject c s).kyBuf = s.kyBuf := by
  unfold State.reject State.raise
  split <;> rfl
@[simp] theorem State.reject_kyValid (c : ErrCode) (s : State) : (State.reject c s).kyValid = s.kyValid := by
  unfold State.reject State.raise
  split <;> rfl
@[simp] theorem State.reject_pend (c : ErrCode) (s : State) : (State.reject c s).pend = s.pend := by
  unfold State.reject State.raise
  split <;> rfl
@[simp] theorem State.reject_rng (c : ErrCode) (s : State) : (State.reject c s).rng = s.rng := by
  unfold State.reject State.raise
  split <;> rfl
@[simp] theorem State.reject_freeReads (c : ErrCode) (s : State) : (State.reject c s).freeReads = s.freeReads := by
  unfold State.reject State.raise
  split <;> rfl
@[simp] theorem State.reject_host (c : ErrCode) (s : State) : (State.reject c s).host = s.host := by
  unfold State.reject State.raise
  split <;> rfl
@[simp] theorem State.reject_turns (c : ErrCode) (s : State) : (State.reject c s).turns = s.turns := by
  unfold State.reject State.raise
  split <;> rfl
@[simp] theorem State.reject_reads (c : ErrCode) (s : State) : (State.reject c s).reads = s.reads := by
  unfold State.reject State.raise
  split <;> rfl

/-! `State.configure` -/

@[simp] theorem State.configure_config (p : ParamSet) (s : State) : (State.configure p s).config = s.config := rfl
@[simp] theorem State.configure_pset (p : ParamSet) (s : State) : (State.configure p s).pset = p := rfl
@[simp] theorem State.configure_configured (p : ParamSet) (s : State) : (State.configure p s).configured = true := rfl
@[simp] theorem State.configure_busy (p : ParamSet) (s : State) : (State.configure p s).busy = s.busy := rfl
@[simp] theorem State.configure_done (p : ParamSet) (s : State) : (State.configure p s).done = s.done := rfl
@[simp] theorem State.configure_err (p : ParamSet) (s : State) : (State.configure p s).err = s.err := rfl
@[simp] theorem State.configure_irqEn (p : ParamSet) (s : State) : (State.configure p s).irqEn = s.irqEn := rfl
@[simp] theorem State.configure_xLo (p : ParamSet) (s : State) : (State.configure p s).xLo = s.xLo := rfl
@[simp] theorem State.configure_xHi (p : ParamSet) (s : State) : (State.configure p s).xHi = s.xHi := rfl
@[simp] theorem State.configure_result (p : ParamSet) (s : State) : (State.configure p s).result = 0 := rfl
@[simp] theorem State.configure_polys (p : ParamSet) (s : State) : (State.configure p s).polys = Vector.replicate 8 (Vector.replicate 512 0) := rfl
@[simp] theorem State.configure_kyBuf (p : ParamSet) (s : State) : (State.configure p s).kyBuf = 0 := rfl
@[simp] theorem State.configure_kyValid (p : ParamSet) (s : State) : (State.configure p s).kyValid = 0 := rfl
@[simp] theorem State.configure_pend (p : ParamSet) (s : State) : (State.configure p s).pend = s.pend := rfl
@[simp] theorem State.configure_rng (p : ParamSet) (s : State) : (State.configure p s).rng = s.rng := rfl
@[simp] theorem State.configure_freeReads (p : ParamSet) (s : State) : (State.configure p s).freeReads = s.freeReads := rfl
@[simp] theorem State.configure_host (p : ParamSet) (s : State) : (State.configure p s).host = s.host := rfl
@[simp] theorem State.configure_turns (p : ParamSet) (s : State) : (State.configure p s).turns = s.turns := rfl
@[simp] theorem State.configure_reads (p : ParamSet) (s : State) : (State.configure p s).reads = s.reads := rfl

/-! `State.resetBlock` -/

@[simp] theorem State.resetBlock_config (s : State) : (State.resetBlock s).config = s.config := rfl
@[simp] theorem State.resetBlock_pset (s : State) : (State.resetBlock s).pset = .n256 := rfl
@[simp] theorem State.resetBlock_configured (s : State) : (State.resetBlock s).configured = false := rfl
@[simp] theorem State.resetBlock_busy (s : State) : (State.resetBlock s).busy = false := rfl
@[simp] theorem State.resetBlock_done (s : State) : (State.resetBlock s).done = false := rfl
@[simp] theorem State.resetBlock_err (s : State) : (State.resetBlock s).err = .none := rfl
@[simp] theorem State.resetBlock_irqEn (s : State) : (State.resetBlock s).irqEn = false := rfl
@[simp] theorem State.resetBlock_xLo (s : State) : (State.resetBlock s).xLo = 0 := rfl
@[simp] theorem State.resetBlock_xHi (s : State) : (State.resetBlock s).xHi = 0 := rfl
@[simp] theorem State.resetBlock_result (s : State) : (State.resetBlock s).result = 0 := rfl
@[simp] theorem State.resetBlock_polys (s : State) : (State.resetBlock s).polys = Vector.replicate 8 (Vector.replicate 512 0) := rfl
@[simp] theorem State.resetBlock_kyBuf (s : State) : (State.resetBlock s).kyBuf = 0 := rfl
@[simp] theorem State.resetBlock_kyValid (s : State) : (State.resetBlock s).kyValid = 0 := rfl
@[simp] theorem State.resetBlock_pend (s : State) : (State.resetBlock s).pend = 0 := rfl
@[simp] theorem State.resetBlock_rng (s : State) : (State.resetBlock s).rng = s.rng := rfl
@[simp] theorem State.resetBlock_freeReads (s : State) : (State.resetBlock s).freeReads = s.freeReads := rfl
@[simp] theorem State.resetBlock_host (s : State) : (State.resetBlock s).host = s.host := rfl
@[simp] theorem State.resetBlock_turns (s : State) : (State.resetBlock s).turns = s.turns := rfl
@[simp] theorem State.resetBlock_reads (s : State) : (State.resetBlock s).reads = s.reads := rfl

/-! `State.afterTurn` -/

@[simp] theorem State.afterTurn_config (s : State) : (State.afterTurn s).config = s.config := rfl
@[simp] theorem State.afterTurn_pset (s : State) : (State.afterTurn s).pset = s.pset := rfl
@[simp] theorem State.afterTurn_configured (s : State) : (State.afterTurn s).configured = s.configured := rfl
@[simp] theorem State.afterTurn_busy (s : State) : (State.afterTurn s).busy = s.busy := rfl
@[simp] theorem State.afterTurn_done (s : State) : (State.afterTurn s).done = s.done := rfl
@[simp] theorem State.afterTurn_err (s : State) : (State.afterTurn s).err = s.err := rfl
@[simp] theorem State.afterTurn_irqEn (s : State) : (State.afterTurn s).irqEn = s.irqEn := rfl
@[simp] theorem State.afterTurn_xLo (s : State) : (State.afterTurn s).xLo = s.xLo := rfl
@[simp] theorem State.afterTurn_xHi (s : State) : (State.afterTurn s).xHi = s.xHi := rfl
@[simp] theorem State.afterTurn_result (s : State) : (State.afterTurn s).result = s.result := rfl
@[simp] theorem State.afterTurn_polys (s : State) : (State.afterTurn s).polys = s.polys := rfl
@[simp] theorem State.afterTurn_kyBuf (s : State) : (State.afterTurn s).kyBuf = s.kyBuf := rfl
@[simp] theorem State.afterTurn_kyValid (s : State) : (State.afterTurn s).kyValid = s.kyValid := rfl
@[simp] theorem State.afterTurn_pend (s : State) : (State.afterTurn s).pend = s.pend := rfl
@[simp] theorem State.afterTurn_rng (s : State) : (State.afterTurn s).rng = s.rng := rfl
@[simp] theorem State.afterTurn_freeReads (s : State) : (State.afterTurn s).freeReads = s.freeReads := rfl
@[simp] theorem State.afterTurn_host (s : State) : (State.afterTurn s).host = s.host := rfl
@[simp] theorem State.afterTurn_turns (s : State) : (State.afterTurn s).turns = s.turns.tail := rfl
@[simp] theorem State.afterTurn_reads (s : State) : (State.afterTurn s).reads = s.reads := rfl

end Sys2Proof.Machine
end

