-- ==== Sys2Proof/Laws/Poly.lean ====
section
/-! SUPPORT. What reads of polynomial coefficients give after the operations that write them. -/

namespace Sys2Proof.Machine

theorem Poly.coef_lt (a : Poly) (i : Nat) : Poly.coef a i < 2 ^ 14 := by
  unfold Poly.coef
  split
  · exact BitVec.isLt _
  · decide

theorem State.coef_lt (s : State) (k : PReg) (i : Nat) : s.coef k i < 2 ^ 14 := Poly.coef_lt _ _

theorem Poly.coef_zeros (i : Nat) : Poly.coef (Vector.replicate 512 0#14) i = 0 := by
  simp [Poly.coef]

theorem Poly.coef_tabulate (f : Nat → Nat) (i : Nat) :
    Poly.coef (Poly.tabulate f) i = if i < 512 then f i % 2 ^ 14 else 0 := by
  unfold Poly.coef Poly.tabulate
  by_cases h : i < 512 <;> simp [h]

/-- A write of the first `n` lanes: they take the new values, the other entries stay. -/
theorem Poly.coef_setLanes (a : Poly) (n : Nat) (f : Nat → Nat) (i : Nat) :
    Poly.coef (Poly.setLanes a n f) i = if i < n ∧ i < 512 then f i % 2 ^ 14 else Poly.coef a i := by
  have hlt := Poly.coef_lt a i
  rw [Poly.setLanes, Poly.coef_tabulate]
  by_cases h : i < 512
  · by_cases hn : i < n
    · simp [h, hn]
    · simpa [h, hn] using hlt
  · simp [h, Poly.coef]

theorem State.coef_setPoly (s : State) (k j : PReg) (a : Poly) (i : Nat) :
    (s.setPoly k a).coef j i = if j = k then Poly.coef a i else s.coef j i := by
  by_cases h : j = k
  · subst h; simp [State.coef]
  · have : (k : Nat) ≠ j := fun e => h (Fin.ext e.symm)
    simp [State.coef, h, this]

/-- A command's write of a ring element: the N lanes of P[rd] and nothing else (43 R223). -/
theorem State.coef_setRing (s : State) (rd k : PReg) (f : Nat → Nat) (i : Nat) :
    (s.setRing rd f).coef k i = if k = rd ∧ i < s.n then f i % 2 ^ 14 else s.coef k i := by
  have hn : s.n ≤ 512 := by unfold State.n; cases s.pset <;> decide
  rw [State.setRing, State.coef_setPoly]
  by_cases h : k = rd
  · subst h
    by_cases hi : i < s.n
    · simp [Poly.coef_setLanes, hi, show i < 512 by omega]
    · simp [Poly.coef_setLanes, hi, State.coef]
  · simp [h]

@[simp] theorem State.coef_complete (s : State) (k : PReg) (i : Nat) : s.complete.coef k i = s.coef k i := rfl

@[simp] theorem State.coef_raise (c : ErrCode) (s : State) (k : PReg) (i : Nat) : (s.raise c).coef k i = s.coef k i := by
  simp [State.coef]

@[simp] theorem State.coef_withBits (s : State) (b : BitStream) (k : PReg) (i : Nat) :
    (s.withBits b).coef k i = s.coef k i := rfl

theorem State.coef_configure (p : ParamSet) (s : State) (k : PReg) (i : Nat) : (s.configure p).coef k i = 0 := by
  simp [State.coef, Poly.coef_zeros]

theorem State.coef_resetBlock (s : State) (k : PReg) (i : Nat) : s.resetBlock.coef k i = 0 := by
  simp [State.coef, Poly.coef_zeros]

end Sys2Proof.Machine
end

