-- ==== Sys2Proof/Laws/Step.lean ====
section
/-! SUPPORT. What each shared operation of the bus and of the agents can do, said once: reads, writes, transactions, turns. -/

namespace Sys2Proof.Machine

/-- A read leaves the state as it is, but for the number of free values taken (20_memory R78). -/
theorem readReg_state (r : Reg) (s : State) :
    (readReg r s).2 = s ∨ (s.busy = true ∧ (readReg r s).2 = { s with freeReads := s.freeReads + 1 }) := by
  by_cases hb : s.busy = true
  · cases r <;> simp only [readReg, hb, if_true, State.freeRead] <;> simp
  · left
    cases r <;> simp only [readReg, hb] <;> rfl

/-- Everything a word write can do to the block. -/
inductive WriteEffect (r : Reg) (w : Word) (s : State) : State → Prop where
  | ignored : WriteEffect r w s s
  | raised (c : ErrCode) : WriteEffect r w s (s.raise c)
  | rejected (c : ErrCode) (idle : s.busy = false) : WriteEffect r w s (s.reject c)
  | accepted (i : Instr) (idle : s.busy = false) (legal : decode w = .ok i) (conf : s.configured = true) :
      WriteEffect r w s (s.accept w)
  | configured (p : ParamSet) (isCfg : r = .cfg) (idle : s.busy = false) : WriteEffect r w s (s.configure p)
  | control : WriteEffect r w s { s with irqEn := w.getLsbD 0 }
  | cleared : WriteEffect r w s (s.clearStatus w)
  | storedLo (idle : s.busy = false) : WriteEffect r w s { s with xLo := w }
  | storedHi (idle : s.busy = false) : WriteEffect r w s { s with xHi := w }
  | coefficient (k : PReg) (i : Index) (idle : s.busy = false) (conf : s.configured = true) (lane : i.val < s.n) :
      WriteEffect r w s (s.setPoly k (s.polys[k].set i (BitVec.ofNat 14 (reduceQ s.q w.toInt))))

/-- A dropped write raises BUSY; an undropped one has its effect (20_memory R80). -/
theorem unlessBusy_effect {r : Reg} {w : Word} {s t : State} (h : s.busy = false → WriteEffect r w s t) :
    WriteEffect r w s (s.unlessBusy t) := by
  unfold State.unlessBusy
  split
  · exact .raised _
  · exact h (by simpa using ‹¬s.busy = true›)

/-- A word write does one of these (20_memory R78, R80). -/
theorem writeReg_effect (r : Reg) (w : Word) (s : State) : WriteEffect r w s (writeReg r w s) := by
  cases r with
  | id => exact .ignored
  | result => exact .ignored
  | paramN => exact .ignored
  | paramQ => exact .ignored
  | reserved => exact .ignored
  | ctrl => exact .control
  | status => exact .cleared
  | xLo => exact unlessBusy_effect .storedLo
  | xHi => exact unlessBusy_effect .storedHi
  | cfg =>
    refine unlessBusy_effect fun idle => ?_
    unfold State.writeCfg
    split
    · exact .configured _ rfl idle
    · exact .raised _
  | cmd =>
    refine unlessBusy_effect fun idle => ?_
    unfold State.issue
    split
    · exact .rejected _ idle
    · split
      · exact .accepted _ idle ‹_› ‹_›
      · exact .rejected _ idle
  | poly k i =>
    refine unlessBusy_effect fun idle => ?_
    unfold State.writePoly
    split
    · exact .raised _
    · split
      · exact .ignored
      · exact .coefficient k i idle (by simpa using ‹¬s.configured = false›) (by omega)

/-- A read transaction that answers was a word access of a register. -/
theorem busRead_next {addr : Nat} {size : AccessSize} {s t : State} (h : busRead addr size s = .next t) :
    ∃ r, s.target addr size = .reg r ∧ t = { (readReg r s).2 with reads := s.reads ++ [(readReg r s).1] } := by
  unfold busRead at h
  split at h
  · cases h
  · cases h
  · rename_i r hr
    exact ⟨r, hr, by injection h with h; exact h.symm⟩

/-- A write transaction that answers was a word access of a register. -/
theorem busWrite_next {addr : Nat} {size : AccessSize} {v : Word} {s t : State} (h : busWrite addr size v s = .next t) :
    ∃ r, s.target addr size = .reg r ∧ t = writeReg r v s := by
  unfold busWrite at h
  split at h
  · cases h
  · cases h
  · rename_i r hr
    exact ⟨r, hr, by injection h with h; exact h.symm⟩

/-- A step is the turn of the agent whose turn it is, in the state with that turn taken off the schedule. -/
theorem step_eq_takeTurn (s : State) : step s = takeTurn s.agent s.afterTurn := by
  unfold step State.agent
  cases h : s.turns with
  | nil =>
    have : s.afterTurn = s := by unfold State.afterTurn; cases s; simp_all
    simp [this]
  | cons t rest =>
    have : s.afterTurn = { s with turns := rest } := by unfold State.afterTurn; simp [h]
    simp [this]

/-- Everything a step that answers can have done. -/
theorem step_cases {s t : State} (h : step s = .next t) :
    (s.agent = .reset ∧ t = s.afterTurn.resetBlock)
    ∨ (s.agent = .engine ∧ s.busy = false ∧ t = s.afterTurn)
    ∨ (s.agent = .engine ∧ s.busy = true ∧ ∃ i, decode s.pend = .ok i ∧ exec i s.afterTurn = .next t)
    ∨ (s.agent = .host ∧ ((s.host = [] ∧ t = s.afterTurn)
      ∨ (∃ rest, s.host = .wait :: rest ∧ (t = s.afterTurn ∨ t = { s.afterTurn with host := rest }))
      ∨ (∃ a z rest, s.host = .read a z :: rest ∧ busRead a z { s.afterTurn with host := rest } = .next t)
      ∨ (∃ a z v rest, s.host = .write a z v :: rest ∧ busWrite a z v { s.afterTurn with host := rest } = .next t))) := by
  rw [step_eq_takeTurn] at h
  cases ha : s.agent with
  | reset =>
    simp only [ha, takeTurn] at h
    injection h with h
    exact .inl ⟨rfl, h.symm⟩
  | engine =>
    simp only [ha, takeTurn, engineTurn, State.afterTurn_busy, State.afterTurn_pend] at h
    cases hb : s.busy
    · simp only [hb] at h
      injection h with h
      exact .inr (.inl ⟨rfl, rfl, h.symm⟩)
    · simp only [hb] at h
      cases hd : decode s.pend with
      | error e => simp [hd] at h
      | ok i =>
        simp only [hd] at h
        exact .inr (.inr (.inl ⟨rfl, rfl, i, rfl, h⟩))
  | host =>
    refine .inr (.inr (.inr ⟨rfl, ?_⟩))
    simp only [ha, takeTurn, hostTurn, State.afterTurn_host] at h
    cases hh : s.host with
    | nil =>
      simp only [hh] at h
      injection h with h
      exact .inl ⟨rfl, h.symm⟩
    | cons op rest =>
      cases op with
      | read a z =>
        simp only [hh] at h
        exact .inr (.inr (.inl ⟨a, z, rest, rfl, h⟩))
      | write a z v =>
        simp only [hh] at h
        exact .inr (.inr (.inr ⟨a, z, v, rest, rfl, h⟩))
      | wait =>
        simp only [hh] at h
        injection h with h
        refine .inr (.inl ⟨rest, rfl, ?_⟩)
        split at h
        · exact .inl h.symm
        · exact .inr h.symm

end Sys2Proof.Machine
end

