-- ==== Sys2Proof/Laws/Sampler.lean ====
section
/-! SUPPORT. What the random-bit operations, the sampler and the commands can do, said once. -/

namespace Sys2Proof.Machine

@[simp] theorem State.bits_withBits (s : State) (b : BitStream) : (s.withBits b).bits = b := rfl

@[simp] theorem State.bits_complete (s : State) : s.complete.bits = s.bits := rfl

@[simp] theorem State.bits_setRing (s : State) (rd : PReg) (f : Nat → Nat) : (s.setRing rd f).bits = s.bits := rfl

@[simp] theorem State.bits_raise (c : ErrCode) (s : State) : (s.raise c).bits = s.bits := by
  simp [State.bits]

/-- A buffer that is not empty is not refilled. -/
theorem BitStream.refill_of_valid {b : BitStream} (h : b.valid ≠ 0) : b.refill = b := if_neg h

/-- An empty buffer is refilled with the next word. -/
theorem BitStream.refill_of_empty {b : BitStream} (h : b.valid = 0) :
    b.refill = { buf := b.rng.draw.1, valid := 32, rng := b.rng.draw.2 } := if_pos h

/-- After a refill at least one bit is held. -/
theorem BitStream.refill_valid_pos (b : BitStream) : 0 < b.refill.valid.val := by
  by_cases h : b.valid = 0
  · rw [refill_of_empty h]; exact (by decide : 0 < 32)
  · rw [refill_of_valid h]
    exact Nat.pos_of_ne_zero fun e => h (Fin.ext e)

theorem BitStream.nextBit_fst (b : BitStream) : b.nextBit.1 = b.refill.buf.getLsbD 0 := rfl

theorem BitStream.nextBit_buf (b : BitStream) : b.nextBit.2.buf = b.refill.buf >>> 1 := rfl

theorem BitStream.nextBit_valid (b : BitStream) : b.nextBit.2.valid.val = b.refill.valid.val - 1 := rfl

theorem BitStream.nextBit_rng (b : BitStream) : b.nextBit.2.rng = b.refill.rng := rfl

/-- A refill keeps the bits above KY_VALID at 0. -/
theorem BitStream.refill_high_zero {b : BitStream} (h : b.buf.toNat < 2 ^ b.valid.val) :
    b.refill.buf.toNat < 2 ^ b.refill.valid.val := by
  by_cases he : b.valid = 0
  · rw [refill_of_empty he]
    exact BitVec.isLt _
  · rwa [refill_of_valid he]

/-- Drawing a bit keeps the bits above KY_VALID at 0. -/
theorem BitStream.nextBit_high_zero {b : BitStream} (h : b.buf.toNat < 2 ^ b.valid.val) :
    b.nextBit.2.buf.toNat < 2 ^ b.nextBit.2.valid.val := by
  have hr := refill_high_zero h
  have hp := b.refill_valid_pos
  rw [nextBit_buf, nextBit_valid, BitVec.toNat_ushiftRight, Nat.shiftRight_eq_div_pow]
  obtain ⟨v, hv⟩ : ∃ v, b.refill.valid.val = v + 1 := ⟨b.refill.valid.val - 1, by omega⟩
  rw [hv, pow_succ] at hr
  rw [hv, Nat.add_sub_cancel]
  omega

/-- One column of the walk. -/
theorem walkFrom_succ (m : KyMatrix) (left c : Nat) (d : Int) (b : BitStream) :
    walkFrom m (left + 1) c d b = match scanRows m c m.rowCount (2 * d + b.nextBit.1.toNat) with
      | .hit r => (some r, b.nextBit.2)
      | .miss d' => walkFrom m left (c + 1) d' b.nextBit.2 := rfl

/-- A column's hit is at one of its rows. -/
theorem scanRows_hit {m : KyMatrix} {c n r : Nat} {d : Int} (h : scanRows m c n d = .hit r) : r < n := by
  induction n generalizing d with
  | zero => cases h
  | succ n ih =>
    simp only [scanRows] at h
    split at h
    · injection h with h; omega
    · have := ih h; omega

/-- A walk's hit is at a row of the matrix. -/
theorem walkFrom_hit {m : KyMatrix} {left c r : Nat} {d : Int} {b b' : BitStream}
    (h : walkFrom m left c d b = (some r, b')) : r < m.rowCount := by
  induction left generalizing c d b with
  | zero => simp [walkFrom] at h
  | succ left ih =>
    rw [walkFrom_succ] at h
    split at h
    · rename_i r' hs
      simp only [Prod.mk.injEq, Option.some.injEq] at h
      exact h.1 ▸ scanRows_hit hs
    · exact ih h

/-! The walk in terms of the stream's bits and the matrix -/

@[simp] theorem BitStream.skip_zero (b : BitStream) : BitStream.skip 0 b = b := rfl

@[simp] theorem BitStream.skip_nextBit (b : BitStream) (k : Nat) : BitStream.skip k b.nextBit.2 = BitStream.skip (k + 1) b := rfl

/-- The bit after `k` bits are thrown away is bit `k`. -/
@[simp] theorem BitStream.nextBit_skip_fst (b : BitStream) (k : Nat) : (BitStream.skip k b).nextBit.1 = b.bitAt k := rfl

/-- Throwing one more bit away. -/
theorem BitStream.skip_succ (b : BitStream) (k : Nat) : BitStream.skip (k + 1) b = (BitStream.skip k b).nextBit.2 := by
  induction k generalizing b with
  | zero => rfl
  | succ k ih => exact ih b.nextBit.2

@[simp] theorem onesDownTo_rowCount (m : KyMatrix) (c : Nat) : onesDownTo m c m.rowCount = 0 := by
  simp [onesDownTo]

/-- One more row of a column. -/
theorem onesDownTo_row (m : KyMatrix) (c : Nat) {r : Nat} (h : r < m.rowCount) :
    onesDownTo m c r = onesDownTo m c (r + 1) + (m.bit r c).toNat := by
  unfold onesDownTo
  rw [Finset.sum_eq_sum_Ico_succ_bot h, Nat.add_comm]

@[simp] theorem walkDistance_zero (m : KyMatrix) (b : BitStream) : walkDistance m b 0 = 0 := rfl

/-- The distance a column without a hit leaves is that after its row 0. -/
theorem walkDistance_succ (m : KyMatrix) (b : BitStream) (c : Nat) : walkDistance m b (c + 1) = distanceAfter m b c 0 := rfl

/-- What the scan of the rows below `n` answers, the rows from `n` on being done: the first row down at which the distance is -1,
else the distance after row 0. -/
theorem scanRows_cases {m : KyMatrix} {c n : Nat} (d : Int) (hn : n ≤ m.rowCount) :
    (∃ r, scanRows m c n (d - onesDownTo m c n) = .hit r ∧ r < n ∧ d - onesDownTo m c r = -1
      ∧ ∀ r', r < r' → r' < n → d - onesDownTo m c r' ≠ -1)
    ∨ (scanRows m c n (d - onesDownTo m c n) = .miss (d - onesDownTo m c 0) ∧ ∀ r < n, d - onesDownTo m c r ≠ -1) := by
  induction n with
  | zero => exact .inr ⟨rfl, fun r h => absurd h (Nat.not_lt_zero r)⟩
  | succ n ih =>
    have hd : d - onesDownTo m c (n + 1) - (m.bit n c).toNat = d - onesDownTo m c n := by
      rw [onesDownTo_row m c hn]; push_cast; ring
    have hs : scanRows m c (n + 1) (d - onesDownTo m c (n + 1))
        = if d - onesDownTo m c n = -1 then .hit n else scanRows m c n (d - onesDownTo m c n) := by
      rw [← hd]; rfl
    rw [hs]
    by_cases h : d - onesDownTo m c n = -1
    · exact .inl ⟨n, if_pos h, n.lt_succ_self, h, fun r' h1 h2 => by omega⟩
    · rw [if_neg h]
      rcases ih (Nat.le_of_succ_le hn) with ⟨r, h1, h2, h3, h4⟩ | ⟨h1, h2⟩
      · refine .inl ⟨r, h1, by omega, h3, fun r' h5 h6 => ?_⟩
        rcases Nat.lt_succ_iff_lt_or_eq.1 h6 with h7 | rfl
        · exact h4 r' h5 h7
        · exact h
      · refine .inr ⟨h1, fun r h3 => ?_⟩
        rcases Nat.lt_succ_iff_lt_or_eq.1 h3 with h4 | rfl
        · exact h2 r h4
        · exact h

/-- What a column's scan answers in the walk: a hit exactly where `ColumnHit` says, else the next column's distance. -/
theorem scanRows_column (m : KyMatrix) (b : BitStream) (c : Nat) :
    (∃ r, scanRows m c m.rowCount (2 * walkDistance m b c + (b.bitAt c).toNat) = .hit r ∧ ColumnHit m b c r)
    ∨ (scanRows m c m.rowCount (2 * walkDistance m b c + (b.bitAt c).toNat) = .miss (walkDistance m b (c + 1))
      ∧ ∀ r, ¬ ColumnHit m b c r) := by
  have h := scanRows_cases (m := m) (c := c) (2 * walkDistance m b c + (b.bitAt c).toNat) le_rfl
  rw [onesDownTo_rowCount, Nat.cast_zero, sub_zero] at h
  rcases h with ⟨r, h1, h2, h3, h4⟩ | ⟨h1, h2⟩
  · exact .inl ⟨r, h1, h2, h3, h4⟩
  · exact .inr ⟨h1, fun r hr => h2 r hr.row hr.hit⟩

/-- A column has at most one hit. -/
theorem ColumnHit.unique {m : KyMatrix} {b : BitStream} {c r r' : Nat} (h : ColumnHit m b c r) (h' : ColumnHit m b c r') :
    r = r' := by
  rcases Nat.lt_trichotomy r r' with hlt | rfl | hlt
  · exact absurd h'.hit (h.first r' hlt h'.row)
  · rfl
  · exact absurd h.hit (h'.first r hlt h.row)

/-- A sample's walk, hit or not, as the sample reads it (42 R186). -/
theorem sampleOne_of_hit {q : Nat} {m : KyMatrix} {b b' : BitStream} {r : Nat} (h : kyWalk m b = (some r, b')) :
    sampleOne q m b = (some (if b'.nextBit.1 then reduceQ q ((q : Int) - r) else r), b'.nextBit.2) := by
  unfold sampleOne; rw [h]

theorem sampleOne_of_exhausted {q : Nat} {m : KyMatrix} {b b' : BitStream} (h : kyWalk m b = (none, b')) :
    sampleOne q m b = (none, b') := by
  unfold sampleOne; rw [h]

/-- What a sample is, by the walk's answer. -/
theorem sampleOne_cases (q : Nat) (m : KyMatrix) (b : BitStream) :
    (∃ b', kyWalk m b = (none, b') ∧ sampleOne q m b = (none, b'))
    ∨ ∃ r b', kyWalk m b = (some r, b') ∧ r < m.rowCount
      ∧ sampleOne q m b = (some (if b'.nextBit.1 then reduceQ q ((q : Int) - r) else r), b'.nextBit.2) := by
  cases h : kyWalk m b with
  | mk o b' =>
    cases o with
    | none => exact .inl ⟨b', rfl, sampleOne_of_exhausted h⟩
    | some r => exact .inr ⟨r, b', rfl, walkFrom_hit h, sampleOne_of_hit h⟩

theorem bitrev_lt (n i : Nat) : bitrev n i < 2 ^ n := by
  induction n generalizing i with
  | zero => simp [bitrev]
  | succ n ih =>
    have := ih (i / 2)
    have h2 : i % 2 = 0 ∨ i % 2 = 1 := by omega
    rw [bitrev, pow_succ]
    rcases h2 with h | h <;> rw [h] <;> omega

theorem ParamSet.n_eq (p : ParamSet) : p.n = 2 ^ p.logN := by cases p <;> rfl

/-- Everything a command's completion can be; a ring element written from a good state has its coefficients below q. -/
theorem exec_cases (i : Instr) (s : State) :
    (i = .reduce ∧ exec i s = .next (State.complete { s with result := BitVec.ofNat 32 (reduceQ s.q s.xOperand) }))
    ∨ (∃ rd f, i ≠ .reduce ∧ i ≠ .sample1 ∧ (∀ k, i ≠ .sample k) ∧ (s.PolyInv → ∀ j < s.n, f j < s.q)
      ∧ exec i s = .next (State.complete (s.setRing rd f)))
    ∨ (i = .sample1 ∧ exec i s = .next (s.finishSample1 (sampleOne s.q s.kyMatrix s.bits)))
    ∨ (∃ rd, i = .sample rd ∧ exec i s = .next (s.finishSample rd (sampleMany s.q s.kyMatrix s.n s.bits))) := by
  have hq : 0 < s.q := ParamSet.q_pos s.pset
  cases i with
  | reduce => exact .inl ⟨rfl, rfl⟩
  | sample1 => exact .inr (.inr (.inl ⟨rfl, rfl⟩))
  | sample rd => exact .inr (.inr (.inr ⟨rd, rfl, rfl⟩))
  | nttFwd rd ra => exact .inr (.inl ⟨rd, _, by simp, by simp, by simp, fun _ _ _ => reduceQ_lt hq _, rfl⟩)
  | nttInv rd ra => exact .inr (.inl ⟨rd, _, by simp, by simp, by simp, fun _ _ _ => reduceQ_lt hq _, rfl⟩)
  | rearrange rd ra =>
    refine .inr (.inl ⟨rd, _, by simp, by simp, by simp, fun h j _ => ?_, rfl⟩)
    exact (h ra _).1 ((bitrev_lt _ _).trans_eq (ParamSet.n_eq s.pset).symm)
  | padd rd ra rb => exact .inr (.inl ⟨rd, _, by simp, by simp, by simp, fun _ _ _ => reduceQ_lt hq _, rfl⟩)
  | psub rd ra rb => exact .inr (.inl ⟨rd, _, by simp, by simp, by simp, fun _ _ _ => reduceQ_lt hq _, rfl⟩)
  | pmul rd ra rb => exact .inr (.inl ⟨rd, _, by simp, by simp, by simp, fun _ _ _ => reduceQ_lt hq _, rfl⟩)

end Sys2Proof.Machine
end

