-- ==== Sys2Proof/Tests/Slice0.lean ====
section
/-! SUPPORT. Tests of the model on values the spec gives (95_test_vectors and the rules' own examples), and for each statement with
hypotheses a concrete state and operands that meet them. -/

-- One elaboration task at a time: many at once take more memory than the check allows.
set_option Elab.async false

namespace Sys2Proof.Tests

open Sys2Proof.Machine

/-! Small states -/

/-- Test matrix T1 (95 §2.3). -/
def t1 : KyMatrix := ⟨4, [[false, true, true, false], [true, false, false, false], [false, false, true, false]]⟩

/-- Test matrix T2 (95 §2.3). -/
def t2 : KyMatrix := ⟨2, [[true, false]]⟩

/-- The default roots, one matrix for both parameter sets, and a base address. -/
def cfgOf (m : KyMatrix) : Config := ⟨7146, 10302, m, m, 0x40000000⟩

/-- A block after `cfg 0`, with random words ready. -/
def ready (m : KyMatrix) (words : List Word) : State :=
  { State.resetWith (cfgOf m) with configured := true, rng := ⟨words, 0⟩ }

/-- A polynomial register given by its first coefficients. -/
def poly (l : List Nat) : Poly := Poly.tabulate fun i => l.getD i 0

/-- After `cfg 0`, with P0 = [7680, 5, 0] and P1 = [1, 7680, 0] (95 §2.4). -/
def pair : State := ((ready t1 []).setPoly 0 (poly [7680, 5])).setPoly 1 (poly [1, 7680])

/-- A block with a command in flight. -/
def flying (w : Word) : State := { State.accept w (ready t1 [0xB66]) with turns := [.engine] }

/-- A block whose next turn is a host transaction. -/
def hosted (s : State) (op : HostOp) : State := { s with turns := [.host], host := [op] }

/-- The state an outcome goes on with. -/
def out (o : Host.Outcome State Fault Refusal) : Option State :=
  match o with
  | .next t => some t
  | _ => none

/-- The STATUS word after a host word write at an offset. -/
def statusAfter (s : State) (off : Nat) (w : Word) : Option Word :=
  (out (busWrite (0x40000000 + off) .word w s)).map State.statusWord

/-! Decoding: each row's word, written out from 30_encoding R103 (95 §2.5) -/

theorem test_decode_reduce : decode 0b00000000000000000000000000000001 = .ok .reduce := by decide +kernel
theorem test_decode_sample1 : decode 0b00000000000000000000000000000010 = .ok .sample1 := by decide +kernel
theorem test_decode_nttFwd : decode 0b00000000000000000001000100010000 = .ok (.nttFwd 1 1) := by decide +kernel
theorem test_decode_nttInv : decode 0b00000000000000000011010100010001 = .ok (.nttInv 5 3) := by decide +kernel
theorem test_decode_rearrange : decode 0b00000000000000000010001000010010 = .ok (.rearrange 2 2) := by decide +kernel
theorem test_decode_padd : decode 0b00000000000000010000001000100000 = .ok (.padd 2 0 1) := by decide +kernel
theorem test_decode_psub : decode 0b00000000000000010000010000100001 = .ok (.psub 4 0 1) := by decide +kernel
theorem test_decode_pmul : decode 0b00000000000001010110011100100010 = .ok (.pmul 7 6 5) := by decide +kernel
theorem test_decode_sample : decode 0b00000000000000000000010100110000 = .ok (.sample 5) := by decide +kernel

theorem test_illegal_words : [0x00000000, 0x00000013, 0x00000031, 0x000000FF].map decode
    = List.replicate 4 (.error .unassignedOpcode) := by decide +kernel
theorem test_illegal_fields : [0x00000101, 0x00001030, 0x00010010].map decode
    = List.replicate 3 (.error .unusedField) := by decide +kernel
theorem test_illegal_reserved : [0x00000830, 0x00008010, 0x00080020, 0x80000022, 0x01000001].map decode
    = List.replicate 5 (.error .reservedBits) := by decide +kernel
theorem test_decode_three_bytes : decodeBytes [0x20, 0x02, 0x01] = .error .truncated := by decide +kernel
theorem test_decode_bytes : decodeBytes [0x20, 0x02, 0x01, 0x00, 0xAA] = .ok (.padd 2 0 1, [0xAA]) := by decide +kernel
theorem test_table_word : decodeTableWord 32 0x00056722 = some (.pmul 7 6 5) := by decide +kernel
theorem test_row_formats : opcodeRows.all (fun r => r.mask == match r.mnemonic.format with
    | .z => 0xFFFFFFFF | .d => 0xFFFFF8FF | .da => 0xFFFF88FF | .dab => 0xFFF888FF) = true := by decide +kernel

/-! The assembler (30_encoding R110) -/

theorem test_assemble_padd : assemble "padd p2, p0, p1".toList = .ok 0x00010220 := by decide +kernel
theorem test_assemble_pmul : assemble " pmul P7, p6,p5 ; square".toList = .ok 0x00056722 := by decide +kernel
theorem test_assemble_p8 : assemble "sample p8".toList = .error .registerNumber := by decide +kernel
theorem test_assemble_count : assemble "ntt_fwd p1".toList = .error .operandCount := by decide +kernel

/-! The checks of WellFormed refuse an ill-formed term each -/

theorem test_wf_line : AsmLine.WellFormed ⟨.padd, [2, 0, 7]⟩ := by decide
theorem test_ill_line_count : ¬ AsmLine.WellFormed ⟨.padd, [2, 0]⟩ := by decide
theorem test_ill_line_register : ¬ AsmLine.WellFormed ⟨.sample, [8]⟩ := by decide
theorem test_wf_psi : ParamSet.PsiOk .n256 7146 ∧ ParamSet.PsiOk .n512 10302 := by unfold ParamSet.PsiOk; decide +kernel
theorem test_wf_t1 : ParamSet.KyOk .n256 t1 ∧ ParamSet.KyOk .n512 t1 := by unfold ParamSet.KyOk; decide +kernel
theorem test_wf_t2 : ParamSet.KyOk .n256 t2 ∧ ParamSet.KyOk .n512 t2 := by unfold ParamSet.KyOk; decide +kernel
theorem test_wf_config : (cfgOf t1).Valid :=
  ⟨test_wf_psi.1, test_wf_psi.2, test_wf_t1.1, test_wf_t1.2, by unfold Config.BaseOk; decide⟩
theorem test_ill_psi_order : ¬ ParamSet.PsiOk .n256 2028 := by unfold ParamSet.PsiOk; decide +kernel
theorem test_ill_psi_zero : ¬ ParamSet.PsiOk .n512 0 := by unfold ParamSet.PsiOk; decide +kernel
theorem test_ill_no_rows : ¬ ParamSet.KyOk .n256 ⟨2, []⟩ := by unfold ParamSet.KyOk; decide +kernel
theorem test_ill_no_columns : ¬ ParamSet.KyOk .n256 ⟨0, [[]]⟩ := by unfold ParamSet.KyOk; decide +kernel
theorem test_ill_ragged : ¬ ParamSet.KyOk .n256 ⟨2, [[true]]⟩ := by unfold ParamSet.KyOk; decide +kernel
theorem test_ill_many_rows : ¬ ParamSet.KyOk .n256 ⟨1, List.replicate 7682 [false]⟩ :=
  fun h => absurd ((List.length_replicate (n := 7682) (a := [false])).symm.trans_le h.2.2.2.1) (by decide)
theorem test_ill_weight : ¬ ParamSet.KyOk .n256 ⟨1, [[true], [true], [true]]⟩ := by unfold ParamSet.KyOk; decide +kernel
theorem test_ill_base : ¬ ({ cfgOf t1 with baseAddr := 0x40001000 } : Config).BaseOk := by unfold Config.BaseOk; decide

/-! Commands, one step each -/

theorem test_reduce_minus_15361 : (out (exec .reduce { ready t1 [] with xHi := 0xFFFFFFFF, xLo := 0xFFFFC3FF })).map
    (fun t => (t.result, t.busy, t.done)) = some (1, false, true) := by decide +kernel
theorem test_reduce_least_pset1 : (out (exec .reduce { ready t1 [] with pset := .n512, xHi := 0x80000000 })).map
    (fun t => t.result) = some 9457 := by decide +kernel
theorem test_padd : (out (exec (.padd 2 0 1) pair)).map (fun t => (t.coef 2 0, t.coef 2 1, t.coef 0 0))
    = some (0, 4, 7680) := by decide +kernel
theorem test_padd_in_place : (out (exec (.padd 0 0 0) pair)).map (fun t => (t.coef 0 0, t.coef 0 1))
    = some (7679, 10) := by decide +kernel
theorem test_psub : (out (exec (.psub 3 0 1) pair)).map (fun t => (t.coef 3 0, t.coef 3 1)) = some (7679, 6) := by
  decide +kernel
theorem test_psub_reversed : (out (exec (.psub 1 1 0) pair)).map (fun t => (t.coef 1 0, t.coef 1 1)) = some (2, 7675) := by
  decide +kernel
theorem test_pmul : (out (exec (.pmul 4 0 1) pair)).map (fun t => (t.coef 4 0, t.coef 4 1)) = some (7680, 7676) := by
  decide +kernel
theorem test_pmul_square : (out (exec (.pmul 0 0 0) pair)).map (fun t => (t.coef 0 0, t.coef 0 1)) = some (1, 25) := by
  decide +kernel
theorem test_nttFwd_x : (out (exec (.nttFwd 0 0) ((ready t1 []).setPoly 0 (poly [0, 1])))).map
    (fun t => (t.coef 0 1, t.coef 0 255)) = some (535, 7480) := by decide +kernel
theorem test_nttFwd_pset1 : [1, 7].map (forward (cfgOf t1) .n512 fun i => [1, 2, 3, 4].getD i 0) = [1575, 10296] := by
  decide +kernel
theorem test_nttInv_x : (out (exec (.nttInv 1 0) ((ready t1 []).setPoly 0 (poly [0, 1])))).map
    (fun t => (t.coef 1 1, t.coef 1 7)) = some (6044, 5254) := by decide +kernel
theorem test_nttInv_pset1 : [2, 7].map (inverse (cfgOf t1) .n512 fun i => [0, 1].getD i 0) = [1280, 7250] := by
  decide +kernel
theorem test_rearrange : (out (exec (.rearrange 2 2) ((ready t1 []).setPoly 2 (poly [0, 1])))).map
    (fun t => (t.coef 2 1, t.coef 2 128)) = some (0, 1) := by decide +kernel
theorem test_rearrange_pset1 : (out (exec (.rearrange 2 1) ({ ready t1 [] with pset := .n512 }.setPoly 1 (poly [0, 1])))).map
    (fun t => (t.coef 2 128, t.coef 2 256)) = some (0, 1) := by decide +kernel
theorem test_sample1 : (out (exec .sample1 (ready t1 [0xB66]))).map (fun t => (t.result, t.kyValid.val, t.rng.drawn))
    = some (7680, 30, 1) := by decide +kernel
theorem test_sample1_exhausted : (out (exec .sample1 (ready t2 [1]))).map (fun t => (t.statusWord, t.result, t.kyValid.val))
    = some (0x56, 0, 30) := by decide +kernel
theorem test_sample_ones : (out (exec (.sample 5) (ready t1 (List.replicate 16 0)))).map
    (fun t => (t.coef 5 255, t.kyValid.val, t.rng.drawn)) = some (1, 0, 16) := by decide +kernel
theorem test_sample_exhausted : (out (exec (.sample 3) ((ready t2 [0xC4]).setPoly 3 (poly [9])))).map
    (fun t => (t.statusWord, t.coef 3 0, t.kyValid.val)) = some (0x56, 9, 28) := by decide +kernel
theorem test_sample_folds_zero : sampleOne 7681 t1 ⟨0b1101, 4, ⟨[], 0⟩⟩ = (some 0, ⟨0b1, 1, ⟨[], 0⟩⟩) := by decide +kernel

/-! Status, errors and the bus (95 §2.6, 10_state R48) -/

theorem test_unconfigured_command : statusAfter (State.resetWith (cfgOf t1)) 0x010 1 = some 0x32 := by decide +kernel
theorem test_unconfigured_poly : statusAfter (State.resetWith (cfgOf t1)) 0x1000 5 = some 0x30 := by decide +kernel
theorem test_illegal_command : statusAfter (ready t1 []) 0x010 0x101 = some 0x16 := by decide +kernel
theorem test_first_error_stays : statusAfter { ready t1 [] with err := .illegal, done := true } 0x004 3 = some 0x16 := by
  decide +kernel
theorem test_dropped_cfg : statusAfter { flying 0x10 with irqEn := true } 0x004 1 = some 0x145 := by decide +kernel
theorem test_clear_status : statusAfter { ready t1 [] with err := .busy, done := true } 0x00C 0xA = some 0x04 := by
  decide +kernel
theorem test_poly_write : [0xFFFFFFFF, 0x1E01, 0x80000000, 0x7FFFFFFF, 12345].map (fun w : Word =>
    (out (busWrite 0x40002004 .word w (ready t1 []))).map fun t => t.coef 2 1)
    = [some 7680, some 0, some 1056, some 6624, some 4664] := by decide +kernel
theorem test_offset : polyOffset 5 255 = 0x3BFC ∧ regAt 0x3BFC = .poly 5 255 := by decide +kernel
theorem test_setx : (HostLine.setx (-15361)).expand 0 = [.write 0x14 .word 0xFFFFC3FF, .write 0x18 .word 0xFFFFFFFF] := by
  decide +kernel
theorem test_engine_turn : (out (step { flying 0x10 with err := .busy, irqEn := true })).map State.statusWord
    = some 0x146 := by decide +kernel

/-! The first step from reset with a table word placed -/

theorem test_fetch_reduce : (out (step (State.reset.withFetchWord 32 0x00000001))).isSome = true := by decide +kernel
theorem test_fetch_sample1 : (out (step (State.reset.withFetchWord 32 0x00000002))).isSome = true := by decide +kernel
theorem test_fetch_sample : (out (step (State.reset.withFetchWord 32 0x00000730))).isSome = true := by decide +kernel
theorem test_fetch_nttInv : (out (step (State.reset.withFetchWord 32 0x00002211))).isSome = true := by decide +kernel
theorem test_fetch_illegal : (out (step (State.reset.withFetchWord 32 0x00000101))).isSome = false := by decide +kernel

/-! Witnesses: each statement's hypotheses are met -/

theorem witness_NoWordSelectsTwoRows :
    ⟨.sample, 0x00000030, 0xFFFFF8FF⟩ ∈ opcodeRows ∧ Row.selects ⟨.sample, 0x00000030, 0xFFFFF8FF⟩ 0x730 = true := by
  decide +kernel
theorem witness_BitReversal_RearrangeIsItsOwnInverse : 511 < 2 ^ 9 ∧ 8 < 9 ∧ 511 < ParamSet.n .n512 := by decide
theorem witness_ReductionLaws : (0 : Int) ≤ 12288 ∧ (12288 : Int) < ParamSet.q .n512 ∧ (0 : Int) < ParamSet.q .n256 := by decide
theorem witness_NttFwd_Sample1_Sample : (ready t1 [0xB66]).config.Valid := test_wf_config
theorem witness_NttInv : (ready t1 []).config.Valid
    ∧ (ready t1 []).config.psi (ready t1 []).pset * 7480 % (ready t1 []).q = 1 := ⟨test_wf_config, by decide +kernel⟩
theorem witness_transform_statements : (cfgOf t1).Valid ∧ (∀ i < ParamSet.n .n512, (fun _ : Nat => 12288) i < ParamSet.q .n512)
    ∧ 511 < ParamSet.n .n512 := ⟨test_wf_config, fun _ _ => (by decide : 12288 < ParamSet.q .n512), by decide⟩
theorem witness_WordBits : (ready t1 [0xB66]).bits.valid = 0 ∧ (ready t1 [0xB66]).bits.rng.queue = [0xB66]
    ∧ (ready t1 []).bits.valid = 0 ∧ (ready t1 []).bits.rng.queue = [] := by decide +kernel
/-- A hit in the last column of a matrix: one row that is 0 and then 1, on two bits 0, gives d = 0 and then 0 - 1 = -1. -/
theorem witness_SampleBitCost_last_column :
    let m : KyMatrix := ⟨2, [[false, true]]⟩
    let b : BitStream := ⟨0b00, 2, ⟨[], 0⟩⟩
    1 < m.cols ∧ ColumnHit m b 1 0 ∧ ∀ c' < 1, ∀ r', ¬ ColumnHit m b c' r' := by
  refine ⟨by decide, ⟨by decide, by decide +kernel, fun r' h h' => absurd h' (by simp [KyMatrix.rowCount]; omega)⟩, ?_⟩
  intro c' hc r' h
  have hr : r' = 0 := Nat.lt_one_iff.1 h.row
  have h0 : c' = 0 := by omega
  subst hr h0
  exact absurd h.hit (by decide +kernel)

/-- A hit in column 0, at row 1 of three (T1 on a bit 0). -/
theorem witness_SampleBitCost_first_column :
    ColumnHit t1 ⟨0, 1, ⟨[], 0⟩⟩ 0 1 ∧ ∀ c' < 0, ∀ r', ¬ ColumnHit t1 ⟨0, 1, ⟨[], 0⟩⟩ c' r' := by
  refine ⟨⟨by decide, by decide +kernel, fun r' h h' => ?_⟩, fun c' h => absurd h (Nat.not_lt_zero c')⟩
  have hr : r' = 2 := by have : r' < 3 := h'; omega
  subst hr
  decide +kernel

/-- T2 on the bits 1, 0 has no hit in either column (95 §2.3: exhausted). -/
theorem witness_SampleBitCost_exhausted : ∀ c < t2.cols, ∀ r, ¬ ColumnHit t2 ⟨0b01, 2, ⟨[], 0⟩⟩ c r := by
  intro c hc r h
  have hr : r = 0 := Nat.lt_one_iff.1 h.row
  have h2 : c = 0 ∨ c = 1 := by have : c < 2 := hc; omega
  subst hr
  rcases h2 with rfl | rfl <;> exact absurd h.hit (by decide +kernel)

theorem witness_NoRandomBitIsDiscarded : 31 < (BitStream.mk 0 32 ⟨[], 0⟩).valid.val ∧ 32 ≤ (BitStream.mk 0 32 ⟨[], 0⟩).valid.val := by
  decide
theorem witness_SignFold_hit : ParamSet.KyOk .n256 t1
    ∧ kyWalk t1 ⟨0b01, 2, ⟨[], 0⟩⟩ = (some 0, ⟨0, 0, ⟨[], 0⟩⟩) := ⟨test_wf_t1.1, by decide +kernel⟩
theorem witness_SignFold_exhausted : ParamSet.KyOk .n256 t2
    ∧ kyWalk t2 ⟨0b01, 2, ⟨[], 0⟩⟩ = (none, ⟨0, 0, ⟨[], 0⟩⟩) := ⟨test_wf_t2.1, by decide +kernel⟩
theorem witness_ExactMatrix : t1.weight = 2 ^ t1.cols := by decide
theorem witness_PolyWindowMap : ∀ off ∈ [0x1000, 0x4FFC], 0x1000 ≤ off ∧ off ≤ 0x4FFC ∧ off % 4 = 0 := by decide
theorem witness_ReservedOffsets : ∀ off ∈ [0x028, 0x0FFC, 0x5000, 0x7FFC],
    off % 4 = 0 ∧ ((0x028 ≤ off ∧ off ≤ 0x0FFC) ∨ (0x5000 ≤ off ∧ off ≤ 0x7FFC)) := by decide
theorem witness_BusErrors : [(0x3FFFFFFF, AccessSize.word), (0x40008000, .word), (0x40000002, .word), (0x40007FFC, .half),
    (0x40007FFC, .word)].map (fun p => (ready t1 []).target p.1 p.2)
    = [.outside, .outside, .bad, .bad, .reg .reserved] := by decide +kernel
theorem witness_idle_writes : (ready t1 []).busy = false ∧ (2 : Word).getLsbD 1 = true ∧ (3 : Word).getLsbD 1 = true
    ∧ (0xFFFFFFFC : Word).extractLsb' 0 2 = 0 ∧ (1 : Word).extractLsb' 0 2 = 1 := by
  decide +kernel
theorem witness_PolyWindow : (State.resetWith (cfgOf t1)).configured = false ∧ (ready t1 []).configured = true
    ∧ (ready t1 []).n ≤ 256 ∧ 255 < (ready t1 []).n ∧ (ready t1 []).busy = false := by decide +kernel
theorem witness_CommandIssue : (flying 1).busy = true ∧ (ready t1 []).busy = false ∧ (ready t1 []).configured = true
    ∧ (State.resetWith (cfgOf t1)).busy = false ∧ (State.resetWith (cfgOf t1)).configured = false
    ∧ decode 1 = .ok .reduce ∧ decode 0 = .error .unassignedOpcode := by decide +kernel
theorem witness_busy_accesses : (flying 1).busy = true ∧ ∀ off ∈ [0x004, 0x010, 0x014, 0x018, 0x1000, 0x4FFC, 0x01C, 0x0FFC, 0x5000,
    0x7FFC], off % 4 = 0 ∧ off ≤ 0x7FFC := by decide +kernel
theorem witness_ErrorLatch : (ready t1 []).err = .none ∧ { ready t1 [] with err := .state }.err ≠ .none
    ∧ (8 : Word).getLsbD 3 = true := by decide +kernel
theorem witness_ResetClears : { flying 1 with turns := [.reset] }.agent = .reset := by decide +kernel
theorem witness_EngineStep : (flying 0x730).agent = .engine ∧ (flying 0x730).busy = true
    ∧ decode (flying 0x730).pend = .ok (.sample 7) := by decide +kernel
theorem witness_HostStep : ∀ op ∈ [HostOp.read 0x4000000C .word, .write 0x40000010 .word 1, .wait],
    (hosted (flying 1) op).agent = .host ∧ (hosted (flying 1) op).host = [op] := by decide +kernel
theorem witness_IdleTurns : { ready t1 [] with turns := [.engine] }.agent = .engine ∧ (ready t1 []).busy = false
    ∧ (ready t1 []).agent = .host ∧ (ready t1 []).host = [] := by decide +kernel

/-- A command in flight of a configured block meets the invariant. -/
theorem flying_inv : (flying 1).Inv where
  config := test_wf_config
  poly k i := by
    have h : (flying 1).coef k i = 0 := by
      have := State.coef_resetBlock (State.resetWith (cfgOf t1)) k i
      exact this
    rw [h]
    exact ⟨fun _ => ParamSet.q_pos _, fun _ => rfl⟩
  buf := by show (0 : Nat) < 1; decide
  result := by show (0 : Nat) < 7681; decide
  pend := fun _ => ⟨rfl, .reduce, test_decode_reduce⟩

theorem witness_EveryStepKeepsTheInvariant : ∃ t, (flying 1).Inv ∧ step (flying 1) = .next t :=
  ⟨_, flying_inv, rfl⟩
theorem witness_CommandInFlight : (flying 1).PendInv ∧ (flying 1).busy = true ∧ (flying 1).agent = .engine :=
  ⟨flying_inv.pend, rfl, rfl⟩
theorem witness_BusyFreezes : (hosted (flying 1) .wait).agent = .host ∧ (hosted (flying 1) .wait).busy = true
    ∧ (out (step (hosted (flying 1) .wait))).isSome = true := by decide +kernel
theorem witness_OnlyFourThingsWriteResult : (out (step { flying 1 with xLo := 1 })).map (fun t => t.result)
    = some 1 ∧ { flying 1 with xLo := 1 }.result = 0 := by decide +kernel
theorem witness_OnlySampling : (out (step (flying 2))).map (fun t => t.kyValid.val) = some 30 ∧ (flying 2).kyValid.val = 0 := by
  decide +kernel
theorem witness_WhoClears : (out (step (flying 1))).map (fun t => t.busy) = some false ∧ (flying 1).busy = true
    ∧ (out (step { flying 1 with turns := [.reset] })).map (fun t => t.configured) = some false
    ∧ { flying 1 with turns := [.reset] }.configured = true := by decide +kernel

end Sys2Proof.Tests
end

