-- ==== Sys2Proof/Proofs/Parameters.lean ====
section
/-! SUPPORT. The parameters the block is built with are written by no command, no bus transaction and no step (00_scope R8).
What a command leaves of the setup is said once, for all of its fields. -/

namespace Sys2Proof.Machine

/-! What a command's completion keeps of the setup -/

theorem State.sameSetup_complete_setRing (s : State) (rd : PReg) (f : Nat → Nat) :
    s.SameSetup (State.complete (s.setRing rd f)) := by
  constructor <;> rfl

theorem State.sameSetup_finishSample1 (s : State) (r : Option Nat × BitStream) : s.SameSetup (s.finishSample1 r) := by
  obtain ⟨_ | v, b⟩ := r
  · constructor <;> simp [State.finishSample1]
  · constructor <;> rfl

theorem State.sameSetup_finishSample (s : State) (rd : PReg) (r : Option (List Nat) × BitStream) :
    s.SameSetup (s.finishSample rd r) := by
  obtain ⟨_ | vs, b⟩ := r
  · constructor <;> simp [State.finishSample]
  · constructor <;> rfl

/-- Every command answers, with a state of the same setup (30_encoding R107). -/
theorem exec_sameSetup (i : Instr) (s : State) : ∃ t, exec i s = .next t ∧ s.SameSetup t := by
  obtain ⟨-, h⟩ | ⟨rd, f, -, -, -, -, h⟩ | ⟨-, h⟩ | ⟨rd, -, h⟩ := exec_cases i s
  · exact ⟨_, h, by constructor <;> rfl⟩
  · exact ⟨_, h, s.sameSetup_complete_setRing rd f⟩
  · exact ⟨_, h, s.sameSetup_finishSample1 _⟩
  · exact ⟨_, h, s.sameSetup_finishSample rd _⟩

/-! The configuration -/

theorem exec_config {i : Instr} {s t : State} (h : exec i s = .next t) : t.config = s.config := by
  obtain ⟨t', ht', setup⟩ := exec_sameSetup i s
  obtain rfl : t' = t := by simpa [ht'] using h
  exact setup.config

@[simp] theorem readReg_config (r : Reg) (s : State) : (readReg r s).2.config = s.config := by
  obtain h | ⟨-, h⟩ := readReg_state r s <;> rw [h]

theorem WriteEffect.config {r : Reg} {w : Word} {s t : State} (h : WriteEffect r w s t) : t.config = s.config := by
  cases h with
  | raised | rejected => simp
  | ignored | accepted | configured | control | cleared | storedLo | storedHi | coefficient => rfl

@[simp] theorem writeReg_config (r : Reg) (w : Word) (s : State) : (writeReg r w s).config = s.config :=
  (writeReg_effect r w s).config

theorem busRead_config {addr : Nat} {size : AccessSize} {s t : State} (h : busRead addr size s = .next t) :
    t.config = s.config := by
  obtain ⟨r, -, rfl⟩ := busRead_next h
  exact readReg_config r s

theorem busWrite_config {addr : Nat} {size : AccessSize} {v : Word} {s t : State}
    (h : busWrite addr size v s = .next t) : t.config = s.config := by
  obtain ⟨r, -, rfl⟩ := busWrite_next h
  exact writeReg_config r v s

/-- Settles O54, agent by agent: a reset and a turn that passes keep the configuration by definition; the ENGINE keeps it by
`exec_config`, the HOST by `busRead_config` and `busWrite_config`. -/
theorem parametersNeverChange : Obligations.ParametersNeverChange := by
  intro s t h
  obtain ⟨-, rfl⟩ | ⟨-, -, rfl⟩ | ⟨-, -, i, -, hexec⟩ | ⟨-, hhost⟩ := step_cases h
  · exact State.resetBlock_config s.afterTurn
  · exact State.afterTurn_config s
  · exact (exec_config hexec).trans s.afterTurn_config
  · obtain ⟨-, rfl⟩ | ⟨rest, -, rfl | rfl⟩ | ⟨a, z, rest, -, hread⟩ | ⟨a, z, v, rest, -, hwrite⟩ := hhost
    · exact State.afterTurn_config s
    · exact State.afterTurn_config s
    · exact State.afterTurn_config s
    · exact (busRead_config hread).trans s.afterTurn_config
    · exact (busWrite_config hwrite).trans s.afterTurn_config

end Sys2Proof.Machine
end

/-! SUPPORT. The window's registers at their offsets, what a word access of each one gives (10_state R33 to R48), and the interrupt
output (R51). -/

namespace Sys2Proof.Machine

/-! The register map (10_state R33, R45, R46) -/

theorem regAt_poly {off : Nat} (h : 0x1000 ≤ off ∧ off < 0x5000) :
    regAt off = .poly ⟨(off - 0x1000) / 0x800, by omega⟩ ⟨(off - 0x1000) % 0x800 / 4, by omega⟩ := by
  unfold regAt
  split
  case h_11 => exact dif_pos h
  all_goals omega

theorem regAt_reserved {off : Nat} (h : 0x028 ≤ off ∧ off < 0x1000 ∨ 0x5000 ≤ off) : regAt off = .reserved := by
  unfold regAt
  split
  case h_11 => exact dif_neg (by omega)
  all_goals omega

theorem regAt_polyOffset (k : PReg) (i : Index) : regAt (polyOffset k i) = .poly k i := by
  unfold polyOffset
  rw [regAt_poly (by omega)]
  congr 1 <;> ext <;> dsimp only <;> omega

/-- A register's offset is a word-aligned offset of the window, and the map leads from it to the register. -/
theorem regAt_offset {r : Reg} {off : Nat} (h : r.offset = some off) :
    regAt off = r ∧ off < 0x8000 ∧ off % 4 = 0 := by
  cases r with
  | reserved => cases h
  | poly k i =>
    obtain rfl : polyOffset k i = off := Option.some.inj h
    exact ⟨regAt_polyOffset k i, by unfold polyOffset; omega, by unfold polyOffset; omega⟩
  | id | cfg | ctrl | status | cmd | xLo | xHi | result | paramN | paramQ =>
    obtain rfl := Option.some.inj h
    decide

/-- Settles O31: both ways by `regAt_polyOffset` and `regAt_poly`. -/
theorem polyWindowMap : Obligations.PolyWindowMap :=
  ⟨regAt_polyOffset, fun _ hlo hhi _ => ⟨_, _, regAt_poly (by omega), rfl, rfl⟩⟩

/-! Word accesses (20_memory R72, R78) -/

theorem target_word (s : State) {off : Nat} (hlt : off < 0x8000) (hal : off % 4 = 0) :
    s.target (s.config.baseAddr + off) .word = .reg (regAt off) := by
  simp [State.target, hlt, hal]

theorem busRead_word (s : State) {off : Nat} (hlt : off < 0x8000) (hal : off % 4 = 0) :
    busRead (s.config.baseAddr + off) .word s
      = .next { (readReg (regAt off) s).2 with reads := s.reads ++ [(readReg (regAt off) s).1] } := by
  simp [busRead, target_word s hlt hal]

theorem busWrite_word (s : State) (w : Word) {off : Nat} (hlt : off < 0x8000) (hal : off % 4 = 0) :
    busWrite (s.config.baseAddr + off) .word w s = .next (writeReg (regAt off) w s) := by
  simp [busWrite, target_word s hlt hal]

/-- A word read at a register's offset. -/
theorem busRead_offset (s : State) {r : Reg} {off : Nat} (h : r.offset = some off) :
    busRead (s.config.baseAddr + off) .word s
      = .next { (readReg r s).2 with reads := s.reads ++ [(readReg r s).1] } := by
  obtain ⟨rfl, hlt, hal⟩ := regAt_offset h
  exact busRead_word s hlt hal

/-- A word write at a register's offset. -/
theorem busWrite_offset (s : State) (w : Word) {r : Reg} {off : Nat} (h : r.offset = some off) :
    busWrite (s.config.baseAddr + off) .word w s = .next (writeReg r w s) := by
  obtain ⟨rfl, hlt, hal⟩ := regAt_offset h
  exact busWrite_word s w hlt hal

/-- Settles O32: the map leads to `Reg.reserved` at these offsets. -/
theorem reservedOffsetsReadZeroAndIgnoreWrites : Obligations.ReservedOffsetsReadZeroAndIgnoreWrites := by
  intro s off w hal hoff
  have hlt : off < 0x8000 := by omega
  have hreg : regAt off = .reserved := regAt_reserved (by omega)
  have hread := busRead_word s hlt hal
  have hwrite := busWrite_word s w hlt hal
  rw [hreg] at hread hwrite
  exact ⟨hread, hwrite⟩

/-! The words the registers read as -/

theorem State.ctrlWord_eq (s : State) : s.ctrlWord = if s.irqEn then 1 else 0 := by
  unfold State.ctrlWord
  cases s.irqEn <;> rfl

theorem State.paramNWord_eq (s : State) :
    s.paramNWord = if s.configured = false then 0 else if s.pset = .n256 then 256 else 512 := by
  unfold State.paramNWord State.n
  cases s.configured <;> cases s.pset <;> rfl

theorem State.paramQWord_eq (s : State) :
    s.paramQWord = if s.configured = false then 0 else if s.pset = .n256 then 7681 else 12289 := by
  unfold State.paramQWord State.q
  cases s.configured <;> cases s.pset <;> rfl

theorem State.polyWord_toNat (s : State) (k : PReg) (i : Index) :
    (s.polyWord k i).toNat = if s.configured = false then 0 else if s.n ≤ i.val then 0 else s.coef k i.val := by
  have hcoef := s.coef_lt k i.val
  unfold State.polyWord
  split
  · rfl
  · split
    · rfl
    · rw [BitVec.toNat_ofNat]
      omega

/-- Settles O33: each access is at its register's offset. -/
theorem readOnlyRegistersIgnoreWrites : Obligations.ReadOnlyRegistersIgnoreWrites := by
  intro s w
  refine ⟨busWrite_offset s w (r := .id) rfl, busWrite_offset s w (r := .result) rfl,
    busWrite_offset s w (r := .paramN) rfl, busWrite_offset s w (r := .paramQ) rfl,
    busRead_offset s (r := .id) rfl, ?_, busRead_offset s (r := .cmd) rfl, fun idle => ?_⟩
  · rw [busRead_offset s (r := .cfg) rfl]
    simp only [readReg, State.cfgWord]
    cases s.pset <;> rfl
  · rw [busRead_offset s (r := .result) rfl]
    simp [readReg, idle]

/-- Settles O40: each access is at its register's offset. -/
theorem paramReads : Obligations.ParamReads := by
  intro s
  rw [← s.paramNWord_eq, ← s.paramQWord_eq]
  exact ⟨busRead_offset s (r := .paramN) rfl, busRead_offset s (r := .paramQ) rfl, fun w =>
    ⟨busWrite_offset s w (r := .paramN) rfl, busWrite_offset s w (r := .paramQ) rfl⟩⟩

/-! STATUS, CTRL and the interrupt output -/

/-- Settles O48: the handler's word has bits 1 and 3, so DONE and ERR are both cleared. -/
theorem interruptLevel : Obligations.InterruptLevel := by
  intro s
  constructor
  · simp [State.irq]
  · simp [State.irq]

/-- Settles O36: the write is `State.clearStatus`. -/
theorem statusWriteClearsDoneAndErr : Obligations.StatusWriteClearsDoneAndErr := by
  intro s w
  have hdone : (if w.getLsbD 1 then false else s.done) = (s.done && !w.getLsbD 1) := by
    cases w.getLsbD 1 <;> simp
  rw [← hdone]
  exact busWrite_offset s w (r := .status) rfl

/-- Settles O37: the accesses are at the offset of CTRL, and the interrupt output is gated by IRQ_EN. -/
theorem ctrlHoldsIrqEnable : Obligations.CtrlHoldsIrqEnable := by
  intro s w
  refine ⟨busWrite_offset s w (r := .ctrl) rfl, ?_, fun h => ?_⟩
  · rw [← s.ctrlWord_eq]
    exact busRead_offset s (r := .ctrl) rfl
  · simp [State.irq, h]

/-- The fields of the STATUS word (10_state R39). They depend on four flags and a 4-bit code only, so the kernel goes through
all 256 values of these. -/
theorem State.statusWord_fields (s : State) :
    s.statusWord.getLsbD 0 = s.busy ∧ s.statusWord.getLsbD 1 = s.done ∧ s.statusWord.getLsbD 2 = s.configured
    ∧ s.statusWord.getLsbD 3 = false ∧ s.statusWord.extractLsb' 4 4 = s.err.code ∧ s.statusWord.getLsbD 8 = s.irq
    ∧ s.statusWord.extractLsb' 9 23 = 0 := by
  unfold State.statusWord
  generalize s.irq = irq, s.err.code = err, s.configured = configured, s.done = done, s.busy = busy
  revert irq err configured done busy
  decide +kernel

/-- Settles O35: the read is at the offset of STATUS, and the fields are those of `State.statusWord_fields`. -/
theorem statusReadFields : Obligations.StatusReadFields := by
  intro s
  obtain ⟨hbusy, hdone, hconf, hzero, herr, hirq, hhigh⟩ := s.statusWord_fields
  refine ⟨busRead_offset s (r := .status) rfl, hbusy, hdone, hconf, hzero, herr.trans ?_, hirq, hhigh⟩
  cases s.err <;> rfl

/-! Writes while idle -/

theorem State.unlessBusy_of_idle {s : State} (h : s.busy = false) (t : State) : s.unlessBusy t = t := by
  simp [State.unlessBusy, h]

/-- The latch as an exact state (60_exceptions R244). -/
theorem State.raise_eq (c : ErrCode) (s : State) :
    s.raise c = { s with err := if s.err = .none then c else s.err } := by
  unfold State.raise
  split <;> rfl

/-- Settles O41: the accesses are at the offsets of X_LO and X_HI. -/
theorem xHoldsWhatWasWritten : Obligations.XHoldsWhatWasWritten := by
  intro s w idle
  refine ⟨?_, ?_, busRead_offset s (r := .xLo) rfl, busRead_offset s (r := .xHi) rfl⟩
  · rw [busWrite_offset s w (r := .xLo) rfl, writeReg, State.unlessBusy_of_idle idle]
  · rw [busWrite_offset s w (r := .xHi) rfl, writeReg, State.unlessBusy_of_idle idle]

/-- A CFG write while idle is not dropped (10_state R36, R37). -/
theorem busWrite_cfg_of_idle {s : State} (idle : s.busy = false) (w : Word) :
    busWrite (s.config.baseAddr + 0x004) .word w s = .next (s.writeCfg w) := by
  rw [busWrite_offset s w (r := .cfg) rfl, writeReg, State.unlessBusy_of_idle idle]

theorem ParamSet.ofCode_code (p : ParamSet) : ParamSet.ofCode p.code = some p := by cases p <;> rfl

/-- Codes 2 and 3 select no parameter set (00_scope R3). -/
theorem ParamSet.ofCode_eq_none {c : BitVec 2} : ParamSet.ofCode c = none ↔ c.getLsbD 1 = true := by
  revert c
  decide

theorem State.writeCfg_legal {w : Word} {p : ParamSet} (h : w.extractLsb' 0 2 = p.code) (s : State) :
    s.writeCfg w = s.configure p := by
  simp [State.writeCfg, h, ParamSet.ofCode_code]

theorem State.writeCfg_illegal {w : Word} (h : w.getLsbD 1 = true) (s : State) : s.writeCfg w = s.raise .config := by
  have hnone : ParamSet.ofCode (w.extractLsb' 0 2) = none := ParamSet.ofCode_eq_none.2 (by simp [h])
  simp [State.writeCfg, hnone]

/-- Settles O38: the write is `State.configure`. -/
theorem legalCfgWriteConfigures : Obligations.LegalCfgWriteConfigures := by
  intro s w p idle hcode
  have hp : w.extractLsb' 0 2 = p.code := by cases p <;> exact hcode
  refine ⟨s.configure p, ?_, rfl, rfl, s.coef_configure p, rfl, rfl, rfl, rfl, rfl, rfl, rfl, rfl, rfl, rfl,
    ⟨rfl, rfl, rfl, rfl, rfl, rfl⟩⟩
  rw [busWrite_cfg_of_idle idle, State.writeCfg_legal hp]

/-- Settles O39: the write is the latch of CONFIG. -/
theorem illegalCfgWriteRaisesConfig : Obligations.IllegalCfgWriteRaisesConfig := by
  intro s w idle hbit
  rw [busWrite_cfg_of_idle idle, State.writeCfg_illegal hbit, State.raise_eq]

/-! The POLY window while idle (10_state R47, R48) -/

theorem baseAddr_add_polyOffset (b : Nat) (k : PReg) (i : Index) :
    b + 0x1000 + k.val * 0x800 + i.val * 4 = b + polyOffset k i := by
  unfold polyOffset
  omega

/-- Settles O42: the read is `State.polyWord`. -/
theorem polyWindowRead : Obligations.PolyWindowRead := by
  intro s k i idle
  refine ⟨s.polyWord k i, ?_, s.polyWord_toNat k i⟩
  rw [baseAddr_add_polyOffset, busRead_offset s (r := .poly k i) rfl]
  simp [readReg, idle]

theorem Poly.coef_set (a : Poly) (i : Index) (c : Coef) (l : Nat) :
    Poly.coef (a.set i c) l = if l = i.val then c.toNat else Poly.coef a l := by
  unfold Poly.coef
  by_cases hl : l < 512
  · by_cases hi : l = i.val
    · simp [hi]
    · simp [hl, hi, Ne.symm hi]
  · have : l ≠ i.val := by omega
    simp [hl, this]

/-- What the store of one coefficient makes of every coefficient. -/
theorem State.coef_setPoly_set (s : State) (k j : PReg) (i : Index) (c : Coef) (l : Nat) :
    (s.setPoly k (s.polys[k].set i c)).coef j l = if j = k ∧ l = i.val then c.toNat else s.coef j l := by
  rw [State.coef_setPoly, Poly.coef_set]
  by_cases hj : j = k
  · subst hj
    by_cases hl : l = i.val <;> simp [hl, State.coef]
  · simp [hj]

/-- A remainder mod q fits a coefficient. -/
theorem toNat_ofNat_reduceQ (p : ParamSet) (x : Int) : (BitVec.ofNat 14 (reduceQ p.q x)).toNat = reduceQ p.q x := by
  have hlt := reduceQ_lt (ParamSet.q_pos p) x
  have hq := ParamSet.q_lt p
  rw [BitVec.toNat_ofNat]
  omega

/-- Settles O43, by the three cases of `State.writePoly`. -/
theorem polyWindowWrite : Obligations.PolyWindowWrite := by
  intro s k i w idle
  refine ⟨s.writePoly k i w, ?_, fun hconf => ?_, fun hconf habove => ?_, fun hconf hlane => ?_⟩
  · rw [baseAddr_add_polyOffset, busWrite_offset s w (r := .poly k i) rfl, writeReg, State.unlessBusy_of_idle idle]
  · rw [State.writePoly, if_pos hconf, State.raise_eq]
  · rw [State.writePoly, if_neg (by simp [hconf]), if_pos habove]
  · have hstored : s.writePoly k i w = s.setPoly k (s.polys[k].set i (BitVec.ofNat 14 (reduceQ s.q w.toInt))) := by
      rw [State.writePoly, if_neg (by simp [hconf]), if_neg (by omega)]
    rw [hstored]
    refine ⟨?_, fun j l hne => ?_, rfl⟩
    · rw [State.coef_setPoly_set, if_pos ⟨rfl, rfl⟩]
      exact (congrArg Nat.cast (toNat_ofNat_reduceQ s.pset w.toInt)).trans
        (reduceQ_eq_emod (ParamSet.q_pos s.pset) w.toInt)
    · rw [State.coef_setPoly_set, if_neg (by tauto)]

end Sys2Proof.Machine

/-! SUPPORT. What a step that answers does to the block, as the claims about the block's fields read it. -/

namespace Sys2Proof.Machine

/-- A read transaction that answers changes only what was read and the number of free values taken. -/
theorem busRead_frame {addr : Nat} {size : AccessSize} {s t : State} (h : busRead addr size s = .next t) :
    ∃ n l, t = { s with freeReads := n, reads := l } := by
  obtain ⟨r, -, rfl⟩ := busRead_next h
  obtain hr | ⟨-, hr⟩ := readReg_state r s
  · exact ⟨s.freeReads, _, by rw [hr]⟩
  · exact ⟨s.freeReads + 1, _, by rw [hr]⟩

/-- The state in which the HOST's next transaction is performed: its turn is taken and `rest` remains to be done. -/
def State.takeOp (s : State) (rest : List HostOp) : State :=
  { s.afterTurn with host := rest }

@[simp] theorem State.takeOp_configured (s : State) (rest : List HostOp) : (s.takeOp rest).configured = s.configured := rfl
@[simp] theorem State.takeOp_busy (s : State) (rest : List HostOp) : (s.takeOp rest).busy = s.busy := rfl
@[simp] theorem State.takeOp_result (s : State) (rest : List HostOp) : (s.takeOp rest).result = s.result := rfl
@[simp] theorem State.takeOp_bits (s : State) (rest : List HostOp) : (s.takeOp rest).bits = s.bits := rfl

/-- What a step that answers does to the block: a reset, a completion, a word write, or nothing outside the environment. -/
theorem step_block_cases {s t : State} (h : step s = .next t) :
    (s.agent = .reset ∧ t = s.afterTurn.resetBlock)
    ∨ (s.agent = .engine ∧ s.busy = true ∧ ∃ i, decode s.pend = .ok i ∧ exec i s.afterTurn = .next t)
    ∨ (s.agent = .host ∧ ∃ a z v rest r, s.host = .write a z v :: rest ∧ s.target a z = .reg r
      ∧ t = writeReg r v (s.takeOp rest))
    ∨ (∃ n host reads, t = { s.afterTurn with freeReads := n, host := host, reads := reads }) := by
  obtain hreset | ⟨-, -, rfl⟩ | hexec | ⟨hagent, hhost⟩ := step_cases h
  · exact .inl hreset
  · exact .inr (.inr (.inr ⟨_, _, _, rfl⟩))
  · exact .inr (.inl hexec)
  · obtain ⟨-, rfl⟩ | ⟨rest, -, rfl | rfl⟩ | ⟨a, z, rest, -, hread⟩ | ⟨a, z, v, rest, hop, hwrite⟩ := hhost
    · exact .inr (.inr (.inr ⟨_, _, _, rfl⟩))
    · exact .inr (.inr (.inr ⟨_, _, _, rfl⟩))
    · exact .inr (.inr (.inr ⟨_, _, _, rfl⟩))
    · obtain ⟨n, l, rfl⟩ := busRead_frame hread
      exact .inr (.inr (.inr ⟨_, _, _, rfl⟩))
    · obtain ⟨r, htarget, rfl⟩ := busWrite_next hwrite
      exact .inr (.inr (.inl ⟨hagent, a, z, v, rest, r, hop, htarget, rfl⟩))

end Sys2Proof.Machine

/-! SUPPORT. Every step keeps the invariant (10_state R32, R43, R49; 30_encoding R106): what each part of it needs of the operation
that writes it, then one lemma for each operation, each agent and the step. -/

namespace Sys2Proof.Machine

/-! The sampler's answers -/

/-- The bits not yet consumed are the low KY_VALID ones, and the others are 0 (10_state R49): `State.BufInv` of a stream. -/
def BitStream.HighZero (b : BitStream) : Prop :=
  b.buf.toNat < 2 ^ b.valid.val

theorem walkFrom_highZero (m : KyMatrix) (left c : Nat) (d : Int) {b : BitStream} (h : b.HighZero) :
    (walkFrom m left c d b).2.HighZero := by
  induction left generalizing c d b with
  | zero => exact h
  | succ left ih =>
    have hnext : b.nextBit.2.HighZero := BitStream.nextBit_high_zero h
    rw [walkFrom_succ]
    split
    · exact hnext
    · exact ih _ _ hnext

theorem sampleOne_highZero (q : Nat) (m : KyMatrix) {b : BitStream} (h : b.HighZero) :
    (sampleOne q m b).2.HighZero := by
  have hwalk : (kyWalk m b).2.HighZero := walkFrom_highZero m m.cols 0 0 h
  obtain ⟨b', hw, hs⟩ | ⟨r, b', hw, -, hs⟩ := sampleOne_cases q m b
  · rw [hw] at hwalk
    rw [hs]
    exact hwalk
  · rw [hw] at hwalk
    rw [hs]
    exact BitStream.nextBit_high_zero hwalk

/-- A sample from an allowed matrix is in [0, q) (42 R186). -/
theorem sampleOne_lt {p : ParamSet} {m : KyMatrix} (hm : p.KyOk m) {b : BitStream} {v : Nat}
    (h : (sampleOne p.q m b).1 = some v) : v < p.q := by
  obtain ⟨-, -, -, hrows, -⟩ := hm
  obtain ⟨b', -, hs⟩ | ⟨r, b', -, hr, hs⟩ := sampleOne_cases p.q m b
  · simp [hs] at h
  · simp only [hs, Option.some.injEq] at h
    subst h
    split
    · exact reduceQ_lt (ParamSet.q_pos p) _
    · omega

/-- One more sample. -/
theorem sampleMany_succ (q : Nat) (m : KyMatrix) (k : Nat) (b : BitStream) :
    ((sampleOne q m b).1 = none ∧ sampleMany q m (k + 1) b = (none, (sampleOne q m b).2))
    ∨ ∃ v, (sampleOne q m b).1 = some v ∧ sampleMany q m (k + 1) b
      = ((sampleMany q m k (sampleOne q m b).2).1.map (v :: ·), (sampleMany q m k (sampleOne q m b).2).2) := by
  rcases hone : sampleOne q m b with ⟨_ | v, b'⟩
  · exact .inl ⟨rfl, by simp [sampleMany, hone]⟩
  · refine .inr ⟨v, rfl, ?_⟩
    rcases hmany : sampleMany q m k b' with ⟨_ | vs, b''⟩ <;> simp [sampleMany, hone, hmany]

theorem sampleMany_highZero (q : Nat) (m : KyMatrix) (k : Nat) {b : BitStream} (h : b.HighZero) :
    (sampleMany q m k b).2.HighZero := by
  induction k generalizing b with
  | zero => exact h
  | succ k ih =>
    have hone := sampleOne_highZero q m h
    obtain ⟨-, hs⟩ | ⟨v, -, hs⟩ := sampleMany_succ q m k b <;> rw [hs]
    · exact hone
    · exact ih hone

/-- Every one of the samples is in [0, q). -/
theorem sampleMany_lt {p : ParamSet} {m : KyMatrix} (hm : p.KyOk m) {k : Nat} {b : BitStream} {vs : List Nat}
    (h : (sampleMany p.q m k b).1 = some vs) : ∀ v ∈ vs, v < p.q := by
  induction k generalizing b vs with
  | zero =>
    obtain rfl : [] = vs := Option.some.inj h
    simp
  | succ k ih =>
    obtain ⟨-, hs⟩ | ⟨v, hv, hs⟩ := sampleMany_succ p.q m k b <;> rw [hs] at h
    · cases h
    · obtain ⟨vs', hvs', rfl⟩ := Option.map_eq_some_iff.1 h
      exact List.forall_mem_cons.2 ⟨sampleOne_lt hm hv, ih hvs'⟩

theorem kyOk_of_valid {c : Config} (h : c.Valid) (p : ParamSet) : p.KyOk (c.ky p) := by
  cases p
  · exact h.ky0
  · exact h.ky1

/-! The polynomial registers (10_state R32) -/

/-- A ring element with entries below q keeps the register file's invariant. -/
theorem State.PolyInv.setRing {s : State} (h : s.PolyInv) (rd : PReg) {f : Nat → Nat} (hf : ∀ j < s.n, f j < s.q) :
    (s.setRing rd f).PolyInv := by
  intro k i
  show (i < s.n → (s.setRing rd f).coef k i < s.q) ∧ (s.n ≤ i → (s.setRing rd f).coef k i = 0)
  rw [State.coef_setRing]
  split
  · rename_i hlane
    have hmod := Nat.mod_le (f i) (2 ^ 14)
    exact ⟨fun hi => hmod.trans_lt (hf i hi), fun hi => by omega⟩
  · exact h k i

/-- So does a coefficient below q in a lane below N. -/
theorem State.PolyInv.setPoly_set {s : State} (h : s.PolyInv) (k : PReg) {i : Index} (hlane : i.val < s.n) {c : Coef}
    (hc : c.toNat < s.q) : (s.setPoly k (s.polys[k].set i c)).PolyInv := by
  intro j l
  show (l < s.n → (s.setPoly k (s.polys[k].set i c)).coef j l < s.q)
    ∧ (s.n ≤ l → (s.setPoly k (s.polys[k].set i c)).coef j l = 0)
  rw [State.coef_setPoly_set]
  split
  · exact ⟨fun _ => hc, fun hl => by omega⟩
  · exact h j l

/-! The invariant and the operations -/

/-- A cleared block with nothing in flight meets the invariant. -/
theorem State.inv_of_cleared {s : State} (config : s.config.Valid) (poly : ∀ k i, s.coef k i = 0) (buf : s.kyBuf = 0)
    (result : s.result = 0) (idle : s.busy = false) : s.Inv where
  config := config
  poly k i := by simp [poly, State.q, ParamSet.q_pos]
  buf := by simp [State.BufInv, buf]
  result := by simp [State.ResultInv, result, State.q, ParamSet.q_pos]
  pend := by simp [State.PendInv, idle]

theorem State.Inv.raise {s : State} (h : s.Inv) (c : ErrCode) : (s.raise c).Inv := by
  rw [State.raise_eq]
  exact ⟨h.config, h.poly, h.buf, h.result, h.pend⟩

theorem State.Inv.complete {s : State} (h : s.Inv) : s.complete.Inv :=
  ⟨h.config, h.poly, h.buf, h.result, by simp [State.PendInv]⟩

theorem State.Inv.withBits {s : State} (h : s.Inv) {b : BitStream} (hb : b.HighZero) : (s.withBits b).Inv :=
  ⟨h.config, h.poly, hb, h.result, h.pend⟩

theorem State.Inv.setRing {s : State} (h : s.Inv) (rd : PReg) {f : Nat → Nat} (hf : ∀ j < s.n, f j < s.q) :
    (s.setRing rd f).Inv :=
  ⟨h.config, h.poly.setRing rd hf, h.buf, h.result, h.pend⟩

/-- A RESULT below q. -/
theorem State.Inv.setResult {s : State} (h : s.Inv) {v : Nat} (hv : v < s.q) :
    { s with result := BitVec.ofNat 32 v }.Inv := by
  refine ⟨h.config, h.poly, h.buf, ?_, h.pend⟩
  show (BitVec.ofNat 32 v).toNat < s.q
  rw [BitVec.toNat_ofNat]
  exact (Nat.mod_le _ _).trans_lt hv

theorem State.Inv.finishSample1 {s : State} (h : s.Inv) {r : Option Nat × BitStream} (hb : r.2.HighZero)
    (hv : ∀ v, r.1 = some v → v < s.q) : (s.finishSample1 r).Inv := by
  obtain ⟨_ | v, b⟩ := r
  · exact ((h.withBits hb).raise .kyExhausted).complete
  · exact ((h.withBits hb).setResult (hv v rfl)).complete

theorem State.Inv.finishSample {s : State} (h : s.Inv) (rd : PReg) {r : Option (List Nat) × BitStream}
    (hb : r.2.HighZero) (hvs : ∀ vs, r.1 = some vs → ∀ v ∈ vs, v < s.q) : (s.finishSample rd r).Inv := by
  obtain ⟨_ | vs, b⟩ := r
  · exact ((h.withBits hb).raise .kyExhausted).complete
  · refine ((h.withBits hb).setRing rd fun j _ => ?_).complete
    obtain hj | hj := lt_or_ge j vs.length
    · rw [List.getD_eq_getElem _ _ hj]
      exact hvs vs rfl _ (List.getElem_mem hj)
    · rw [List.getD_eq_default _ _ hj]
      exact ParamSet.q_pos s.pset

/-- A command's completion keeps the invariant. -/
theorem State.Inv.exec {i : Instr} {s t : State} (h : s.Inv) (hexec : exec i s = .next t) : t.Inv := by
  have hbits : s.bits.HighZero := h.buf
  have hky : s.pset.KyOk s.kyMatrix := kyOk_of_valid h.config s.pset
  obtain ⟨-, hi⟩ | ⟨rd, f, -, -, -, hf, hi⟩ | ⟨-, hi⟩ | ⟨rd, -, hi⟩ := exec_cases i s <;>
    obtain rfl := Host.Outcome.next.inj (hi.symm.trans hexec)
  · exact (h.setResult (reduceQ_lt (ParamSet.q_pos s.pset) _)).complete
  · exact (h.setRing rd (hf h.poly)).complete
  · exact h.finishSample1 (sampleOne_highZero _ _ hbits) fun v hv => sampleOne_lt hky hv
  · exact h.finishSample rd (sampleMany_highZero _ _ _ hbits) fun vs hvs => sampleMany_lt hky hvs

/-- A word write keeps the invariant. -/
theorem State.Inv.writeEffect {r : Reg} {w : Word} {s t : State} (h : s.Inv) (heffect : WriteEffect r w s t) : t.Inv := by
  cases heffect with
  | ignored => exact h
  | raised c => exact h.raise c
  | rejected c => exact State.Inv.raise (s := { s with done := true }) ⟨h.config, h.poly, h.buf, h.result, h.pend⟩ c
  | accepted i _ legal conf => exact ⟨h.config, h.poly, h.buf, h.result, fun _ => ⟨conf, i, legal⟩⟩
  | configured p _ idle => exact State.inv_of_cleared h.config (s.coef_configure p) rfl rfl idle
  | control | cleared | storedLo | storedHi => exact ⟨h.config, h.poly, h.buf, h.result, h.pend⟩
  | coefficient k i _ _ lane =>
    have hc : (BitVec.ofNat 14 (reduceQ s.q w.toInt)).toNat < s.q :=
      (toNat_ofNat_reduceQ s.pset _).trans_lt (reduceQ_lt (ParamSet.q_pos s.pset) _)
    exact ⟨h.config, h.poly.setPoly_set k lane hc, h.buf, h.result, h.pend⟩

/-- The invariant does not speak of the environment. -/
theorem State.Inv.env {s : State} (h : s.Inv) (n : Nat) (host : List HostOp) (turns : List Turn) (reads : List Word) :
    { s with freeReads := n, host := host, turns := turns, reads := reads }.Inv :=
  ⟨h.config, h.poly, h.buf, h.result, h.pend⟩

/-- Settles O50: the reset state is cleared and idle. -/
theorem resetMeetsTheInvariant : Obligations.ResetMeetsTheInvariant := fun c hc =>
  State.inv_of_cleared hc (State.resetWith c).coef_resetBlock rfl rfl rfl

/-- Settles O53, agent by agent: a reset clears the block, a completion keeps the invariant by `State.Inv.exec`, a word write by
`State.Inv.writeEffect`, and every other turn changes the environment only. -/
theorem everyStepKeepsTheInvariant : Obligations.EveryStepKeepsTheInvariant := by
  intro s t h hstep
  have hturn : s.afterTurn.Inv := h.env ..
  obtain ⟨-, rfl⟩ | ⟨-, -, i, -, hexec⟩ | ⟨-, a, z, v, rest, r, -, -, rfl⟩ | ⟨n, host, reads, rfl⟩ :=
    step_block_cases hstep
  · exact State.inv_of_cleared h.config s.afterTurn.coef_resetBlock rfl rfl rfl
  · exact hturn.exec hexec
  · exact State.Inv.writeEffect (hturn.env _ rest _ _) (writeReg_effect r v _)
  · exact hturn.env n host _ reads

end Sys2Proof.Machine

/-! SUPPORT. Who writes RESULT (10_state R43), the random bits (R49) and the flags CONFIGURED and BUSY (R52). -/

namespace Sys2Proof.Machine

/-- RESULT is written by REDUCE and SAMPLE1 only. -/
theorem exec_result {i : Instr} {s t : State} (h : exec i s = .next t) (hne : t.result ≠ s.result) :
    i = .reduce ∨ i = .sample1 := by
  obtain ⟨hi, -⟩ | ⟨rd, f, -, -, -, -, hi⟩ | ⟨hi, -⟩ | ⟨rd, -, hi⟩ := exec_cases i s
  · exact .inl hi
  · obtain rfl := Host.Outcome.next.inj (hi.symm.trans h)
    exact absurd rfl hne
  · exact .inr hi
  · obtain rfl := Host.Outcome.next.inj (hi.symm.trans h)
    refine absurd ?_ hne
    unfold State.finishSample
    split <;> simp

/-- The random bits are taken by SAMPLE1 and SAMPLE only. -/
theorem exec_bits {i : Instr} {s t : State} (h : exec i s = .next t) (hne : t.bits ≠ s.bits) :
    i = .sample1 ∨ ∃ rd, i = .sample rd := by
  obtain ⟨-, hi⟩ | ⟨rd, f, -, -, -, -, hi⟩ | ⟨hi, -⟩ | ⟨rd, hi, -⟩ := exec_cases i s
  · obtain rfl := Host.Outcome.next.inj (hi.symm.trans h)
    exact absurd rfl hne
  · obtain rfl := Host.Outcome.next.inj (hi.symm.trans h)
    exact absurd rfl hne
  · exact .inl hi
  · exact .inr ⟨rd, hi⟩

/-- A word write changes RESULT and the random bits only as a CFG write of a legal code while idle. -/
theorem writeReg_result_bits (r : Reg) (w : Word) (s : State) :
    ((writeReg r w s).result = s.result ∧ (writeReg r w s).bits = s.bits)
    ∨ (r = .cfg ∧ s.busy = false ∧ w.getLsbD 1 = false ∧ (writeReg r w s).configured = true) := by
  have heffect := writeReg_effect r w s
  generalize ht : writeReg r w s = t at heffect
  cases heffect with
  | raised | rejected => exact .inl (by simp [State.bits])
  | ignored | accepted | control | cleared | storedLo | storedHi | coefficient => exact .inl ⟨rfl, rfl⟩
  | configured p isCfg idle =>
    subst isCfg
    cases hbit : w.getLsbD 1 with
    | false => exact .inr ⟨rfl, idle, rfl, rfl⟩
    | true =>
      left
      rw [← ht, writeReg, State.unlessBusy_of_idle idle, State.writeCfg_illegal hbit]
      simp

/-- CFG is at offset 0x004 alone. -/
theorem regAt_eq_cfg {off : Nat} (h : regAt off = .cfg) : off = 0x004 := by
  unfold regAt at h
  split at h
  case h_2 => rfl
  case h_11 => split at h <;> cases h
  all_goals cases h

theorem target_eq_cfg {s : State} {addr : Nat} {size : AccessSize} (h : s.target addr size = .reg .cfg) :
    addr = s.config.baseAddr + 0x004 := by
  unfold State.target at h
  split at h
  · split at h
    · have := regAt_eq_cfg (Target.reg.inj h)
      omega
    · cases h
  · cases h

/-- Who can change RESULT or the random bits: a reset, a completion, or a legal CFG write while idle. -/
theorem step_result_bits {s t : State} (h : step s = .next t) (hne : t.result ≠ s.result ∨ t.bits ≠ s.bits) :
    s.agent = .reset
    ∨ (s.agent = .engine ∧ s.busy = true ∧ ∃ i, decode s.pend = .ok i ∧ exec i s.afterTurn = .next t)
    ∨ (s.agent = .host ∧ s.busy = false ∧ t.configured = true
      ∧ ∃ z v rest, s.host = .write (s.config.baseAddr + 0x004) z v :: rest ∧ v.getLsbD 1 = false) := by
  obtain ⟨hreset, -⟩ | hexec | ⟨hagent, a, z, v, rest, r, hop, htarget, rfl⟩ | ⟨n, host, reads, rfl⟩ := step_block_cases h
  · exact .inl hreset
  · exact .inr (.inl hexec)
  · obtain ⟨hresult, hbits⟩ | ⟨rfl, idle, hbit, hconf⟩ := writeReg_result_bits r v (s.takeOp rest)
    · exact absurd hne (by simp [hresult, hbits])
    · obtain rfl := target_eq_cfg htarget
      exact .inr (.inr ⟨hagent, idle, hconf, z, v, rest, hop, hbit⟩)
  · exact (hne.elim (· rfl) (· rfl)).elim

/-- Settles O56, by `step_result_bits` and `exec_result`. -/
theorem onlyFourThingsWriteResult : Obligations.OnlyFourThingsWriteResult := by
  intro s t h hne
  obtain hreset | ⟨hagent, hbusy, i, hdecode, hexec⟩ | hwrite := step_result_bits h (.inl hne)
  · exact .inl hreset
  · refine .inr (.inl ⟨hagent, hbusy, ?_⟩)
    obtain rfl | rfl := exec_result hexec hne
    · exact .inl hdecode
    · exact .inr hdecode
  · exact .inr (.inr hwrite)

/-- Settles O57, by `step_result_bits` and `exec_bits`. -/
theorem onlySamplingTakesRandomBits : Obligations.OnlySamplingTakesRandomBits := by
  intro s t h hne
  have hbits : t.bits ≠ s.bits := by
    intro he
    obtain ⟨hbuf, hvalid, -⟩ := BitStream.mk.inj he
    exact hne.elim (· hbuf) (· hvalid)
  obtain hreset | ⟨hagent, hbusy, i, hdecode, hexec⟩ | ⟨hagent, idle, -, hop⟩ := step_result_bits h (.inr hbits)
  · exact .inl hreset
  · refine .inr (.inl ⟨hagent, hbusy, ?_⟩)
    obtain rfl | ⟨rd, rfl⟩ := exec_bits hexec hbits
    · exact .inl hdecode
    · exact .inr ⟨rd, hdecode⟩
  · exact .inr (.inr ⟨hagent, idle, hop⟩)

/-- No word write clears CONFIGURED or BUSY (10_state R52). -/
theorem WriteEffect.keeps_flags {r : Reg} {w : Word} {s t : State} (h : WriteEffect r w s t) :
    (s.configured = true → t.configured = true) ∧ (s.busy = true → t.busy = true) := by
  cases h with
  | raised | rejected => simp
  | accepted => exact ⟨id, fun _ => rfl⟩
  | configured => exact ⟨fun _ => rfl, id⟩
  | ignored | control | cleared | storedLo | storedHi | coefficient => exact ⟨id, id⟩

/-- Settles O58, agent by agent: a completion keeps CONFIGURED with the rest of the setup, and a word write keeps both flags. -/
theorem whoClearsTheFlags : Obligations.WhoClearsTheFlags := by
  intro s t h
  obtain ⟨hreset, -⟩ | ⟨hengine, -, i, -, hexec⟩ | ⟨-, a, z, v, rest, r, -, -, rfl⟩ | ⟨n, host, reads, rfl⟩ :=
    step_block_cases h
  · exact ⟨fun _ _ => hreset, fun _ _ => .inl hreset⟩
  · obtain ⟨t', ht', setup⟩ := exec_sameSetup i s.afterTurn
    obtain rfl := Host.Outcome.next.inj (ht'.symm.trans hexec)
    refine ⟨fun hset hclear => ?_, fun _ _ => .inr hengine⟩
    exact absurd (setup.configured.trans hset) (by simp [hclear])
  · obtain ⟨hconf, hbusy⟩ := (writeReg_effect r v (s.takeOp rest)).keeps_flags
    exact ⟨fun hset hclear => absurd (hconf hset) (by simp [hclear]),
      fun hset hclear => absurd (hbusy hset) (by simp [hclear])⟩
  · exact ⟨fun hset hclear => absurd (hset.symm.trans hclear) (by decide),
      fun hset hclear => absurd (hset.symm.trans hclear) (by decide)⟩

end Sys2Proof.Machine

/-! SUPPORT. The bytes of a command word (20_memory R74). -/

namespace Sys2Proof

/-- The bytes of a word, put together again, are the word (20_memory R74). -/
theorem wordOfBytes_bytes (w : Word) :
    wordOfBytes (w.extractLsb' 0 8) (w.extractLsb' 8 8) (w.extractLsb' 16 8) (w.extractLsb' 24 8) = w := by
  unfold wordOfBytes
  rw [BitVec.extractLsb'_append_extractLsb'_eq_extractLsb' (show 24 = 16 + 8 from rfl),
    BitVec.extractLsb'_append_extractLsb'_eq_extractLsb' (show 16 = 8 + 8 from rfl),
    BitVec.extractLsb'_append_extractLsb'_eq_extractLsb' (show 8 = 0 + 8 from rfl)]
  exact BitVec.extractLsb'_eq_self

theorem wordBytes_getElem? (w : Word) {j : Nat} (hj : j < 4) : (wordBytes w)[j]? = some (w.extractLsb' (8 * j) 8) := by
  interval_cases j <;> rfl

/-- Decoding from a word's bytes is decoding the word, and takes these four bytes. -/
theorem decodeBytes_wordBytes_append (w : Word) (rest : List Byte) :
    decodeBytes (wordBytes w ++ rest) = (decode w).map fun i => (i, rest) := by
  simp only [wordBytes, List.cons_append, List.nil_append, decodeBytes, wordOfBytes_bytes]
  cases decode w <;> rfl

/-- Settles O6: the byte order by `wordBytes_getElem?`, and the decoding by `decodeBytes_wordBytes_append`. -/
theorem wordBytesAreLittleEndian : Obligations.WordBytesAreLittleEndian := by
  intro w rest
  refine ⟨fun j hj => wordBytes_getElem? w hj, ?_⟩
  rw [decodeBytes_wordBytes_append]
  cases hd : decode w with
  | ok i => exact .inl ⟨i, rfl, rfl⟩
  | error e => exact .inr ⟨e, rfl, rfl⟩

end Sys2Proof

/-! SUPPORT. Bus errors (20_memory R73), accesses outside the window (93 I7), reads while busy (20_memory R80), and the order of
the HOST's transactions (20_memory R81). -/

namespace Sys2Proof.Machine

/-! Where an access goes (20_memory R70 to R73) -/

theorem target_outside {s : State} {addr : Nat} (h : ¬ (s.config.baseAddr ≤ addr ∧ addr < s.config.baseAddr + 0x8000))
    (size : AccessSize) : s.target addr size = .outside :=
  if_neg h

theorem target_bad {s : State} {addr : Nat} {size : AccessSize}
    (hin : s.config.baseAddr ≤ addr ∧ addr < s.config.baseAddr + 0x8000)
    (hbad : ¬ (size = .word ∧ (addr - s.config.baseAddr) % 4 = 0)) : s.target addr size = .bad :=
  (if_pos hin).trans (if_neg hbad)

/-- Settles O34, by where the access goes; an access that is answered is one of a word at an aligned offset. -/
theorem busErrorsAreTheBadAccesses : Obligations.BusErrorsAreTheBadAccesses := by
  intro s addr size w
  refine ⟨fun hout => ?_, fun hin hbad => ?_, fun ⟨hlo, hhi⟩ ⟨hsize, hal⟩ => ?_⟩
  · simp [busRead, busWrite, target_outside hout]
  · simp [busRead, busWrite, target_bad hin hbad]
  · subst hsize
    obtain ⟨off, rfl⟩ := Nat.exists_eq_add_of_le hlo
    rw [Nat.add_sub_cancel_left] at hal
    exact ⟨⟨_, busRead_word s (by omega) hal⟩, ⟨_, busWrite_word s w (by omega) hal⟩⟩

/-! Reads while busy (20_memory R80) -/

/-- The registers whose value is unspecified while busy (20_memory R80, 93 I2). -/
def Reg.FreeWhileBusy (r : Reg) : Prop :=
  r = .result ∨ ∃ k i, r = .poly k i

theorem readReg_free {s : State} (hbusy : s.busy = true) {r : Reg} (h : r.FreeWhileBusy) : readReg r s = s.freeRead := by
  obtain rfl | ⟨k, i, rfl⟩ := h <;> exact if_pos hbusy

/-- Of the other registers only STATUS reads otherwise while busy; the read changes nothing. -/
theorem readReg_setBusy {r : Reg} (hfree : ¬ r.FreeWhileBusy) (hstatus : r ≠ .status) (s : State) (b : Bool) :
    readReg r { s with busy := b } = ((readReg r s).1, { s with busy := b }) := by
  cases r with
  | status => exact absurd rfl hstatus
  | result => exact absurd (.inl rfl) hfree
  | poly k i => exact absurd (.inr ⟨k, i, rfl⟩) hfree
  | id | cfg | ctrl | cmd | xLo | xHi | paramN | paramQ | reserved => rfl

/-- At an aligned offset the map leads to a register of that offset, or to none (10_state R33, R45, R46). -/
theorem offset_regAt {off : Nat} (hal : off % 4 = 0) (h : regAt off ≠ .reserved) : (regAt off).offset = some off := by
  by_cases hpoly : 0x1000 ≤ off ∧ off < 0x5000
  · rw [regAt_poly hpoly]
    simp only [Reg.offset, polyOffset, Option.some.injEq]
    omega
  · have hlow : off < 0x028 := by
      by_contra hhigh
      exact h (regAt_reserved (by omega))
    obtain ⟨n, rfl⟩ := Nat.dvd_of_mod_eq_zero hal
    have hn : n < 10 := by omega
    interval_cases n <;> rfl

/-- A register is at its own offset alone. -/
theorem eq_of_regAt_eq {off o : Nat} {r : Reg} (hal : off % 4 = 0) (h : regAt off = r) (hr : r.offset = some o) :
    off = o := by
  subst h
  have hmapped : regAt off ≠ .reserved := fun hreserved => by simp [hreserved, Reg.offset] at hr
  exact Option.some.inj ((offset_regAt hal hmapped).symm.trans hr)

/-- The offsets whose reads are unspecified while busy: RESULT and the POLY window (10_state R33, R46). -/
theorem freeWhileBusy_regAt_iff {off : Nat} (hal : off % 4 = 0) :
    (regAt off).FreeWhileBusy ↔ off = 0x01C ∨ 0x1000 ≤ off ∧ off ≤ 0x4FFC := by
  constructor
  · rintro (h | ⟨k, i, h⟩)
    · exact .inl (eq_of_regAt_eq hal h rfl)
    · have hoff : off = polyOffset k i := eq_of_regAt_eq hal h rfl
      unfold polyOffset at hoff
      omega
  · rintro (rfl | hwindow)
    · exact .inl rfl
    · exact .inr ⟨_, _, regAt_poly (by omega)⟩

/-- Settles O46: `readReg_free` at RESULT and in the POLY window, `readReg_setBusy` elsewhere. -/
theorem busyReads : Obligations.BusyReads := by
  intro s off hbusy hal hoff
  have hlt : off < 0x8000 := by omega
  refine ⟨fun hoffset => ⟨s.freeRead.1, ?_⟩, fun hresult hpoly hstatus => ⟨(readReg (regAt off) s).1, ?_⟩⟩
  · rw [busRead_word s hlt hal, readReg_free hbusy ((freeWhileBusy_regAt_iff hal).2 hoffset)]
    rfl
  · have hread := readReg_setBusy (r := regAt off) (mt (freeWhileBusy_regAt_iff hal).1 (by omega))
      (fun h => hstatus (eq_of_regAt_eq hal h rfl)) s
    constructor
    · have hkept : (readReg (regAt off) s).2 = s := congrArg Prod.snd (hread s.busy)
      rw [busRead_word s hlt hal, hkept]
    · have hidle := busRead_word { s with busy := false } hlt hal
      rwa [hread false] at hidle

/-! The HOST's turn (20_memory R81) -/

/-- A STATUS read returns BUSY in bit 0 (10_state R39), which is what a poll looks at (30_encoding R113). -/
theorem hostTurn_wait {s : State} {rest : List HostOp} (h : s.host = .wait :: rest) :
    hostTurn s = .next { s with host := if s.busy = true then s.host else rest } := by
  obtain ⟨hbit, -⟩ := s.statusWord_fields
  simp only [hostTurn, h, hbit]
  split
  · rw [← h]
  · rfl

/-- Settles O52, transaction by transaction. -/
theorem hostStepRunsTheNextTransaction : Obligations.HostStepRunsTheNextTransaction := by
  intro s rest a z v hagent
  have hstep : step s = hostTurn s.afterTurn := by rw [step_eq_takeTurn, hagent, takeTurn]
  refine ⟨fun hop => ?_, fun hop => ?_, fun hop => ?_⟩
  · rw [hstep, hostTurn, State.afterTurn_host, hop]
    rfl
  · rw [hstep, hostTurn, State.afterTurn_host, hop]
    rfl
  · rw [hstep, hostTurn_wait ((State.afterTurn_host s).trans hop)]
    rfl

end Sys2Proof.Machine

/-! SUPPORT. The opcode map (30_encoding R100 to R105): a row selects a word exactly when the word is the encoding of the row's
command with the word's own register fields, so the decoder and the encoder are inverse to each other. -/

namespace Sys2Proof

/-! The fields of a word (30_encoding R100) -/

/-- The reserved bits 11, 15 and 31:19 (30_encoding R100). -/
def reservedBits (w : Word) : BitVec 15 :=
  w.extractLsb' 11 1 ++ w.extractLsb' 15 1 ++ w.extractLsb' 19 13

theorem bitVec_append_inj {n m : Nat} {x x' : BitVec n} {y y' : BitVec m} : x ++ y = x' ++ y' ↔ x = x' ∧ y = y' := by
  refine ⟨fun h => ⟨?_, ?_⟩, fun ⟨hx, hy⟩ => by rw [hx, hy]⟩
  · simpa [BitVec.extractLsb'_append_eq_left] using congrArg (·.extractLsb' m n) h
  · simpa [BitVec.extractLsb'_append_eq_right] using congrArg (·.extractLsb' 0 m) h

theorem reservedBits_eq_iff {v w : Word} : reservedBits v = reservedBits w
    ↔ v.extractLsb' 11 1 = w.extractLsb' 11 1 ∧ v.extractLsb' 15 1 = w.extractLsb' 15 1
      ∧ v.extractLsb' 19 13 = w.extractLsb' 19 13 := by
  rw [reservedBits, reservedBits, bitVec_append_inj, bitVec_append_inj, and_assoc]

/-- A word is put together from its fields and its reserved bits. -/
theorem append_fields (w : Word) :
    w.extractLsb' 19 13 ++ w.extractLsb' 16 3 ++ w.extractLsb' 15 1 ++ w.extractLsb' 12 3 ++ w.extractLsb' 11 1
      ++ w.extractLsb' 8 3 ++ w.extractLsb' 0 8 = w := by
  rw [BitVec.extractLsb'_append_extractLsb'_eq_extractLsb' (show 19 = 16 + 3 from rfl),
    BitVec.extractLsb'_append_extractLsb'_eq_extractLsb' (show 16 = 15 + 1 from rfl),
    BitVec.extractLsb'_append_extractLsb'_eq_extractLsb' (show 15 = 12 + 3 from rfl),
    BitVec.extractLsb'_append_extractLsb'_eq_extractLsb' (show 12 = 11 + 1 from rfl),
    BitVec.extractLsb'_append_extractLsb'_eq_extractLsb' (show 11 = 8 + 3 from rfl),
    BitVec.extractLsb'_append_extractLsb'_eq_extractLsb' (show 8 = 0 + 8 from rfl)]
  exact BitVec.extractLsb'_eq_self

/-- Words with the same fields are the same word. -/
theorem word_eq_iff {v w : Word} : v = w ↔ opcField v = opcField w ∧ rdField v = rdField w ∧ raField v = raField w
    ∧ rbField v = rbField w ∧ reservedBits v = reservedBits w := by
  refine ⟨fun h => by simp [h], fun ⟨hopc, hrd, hra, hrb, hreserved⟩ => ?_⟩
  obtain ⟨h11, h15, hhigh⟩ := reservedBits_eq_iff.1 hreserved
  rw [← append_fields v, ← append_fields w, hhigh, BitVec.toFin_inj.1 hrb, h15, BitVec.toFin_inj.1 hra, h11,
    BitVec.toFin_inj.1 hrd, show v.extractLsb' 0 8 = w.extractLsb' 0 8 from hopc]

theorem fields_and (v w : Word) : opcField (v &&& w) = opcField v &&& opcField w
    ∧ rdField (v &&& w) = rdField v &&& rdField w ∧ raField (v &&& w) = raField v &&& raField w
    ∧ rbField (v &&& w) = rbField v &&& rbField w
    ∧ reservedBits (v &&& w) = reservedBits v &&& reservedBits w := by
  simp only [opcField, rdField, raField, rbField, reservedBits, BitVec.extractLsb'_and, ← BitVec.and_append,
    BitVec.toFin_and, and_self]

/-- The fields of a word that the encoder puts together are the ones it was given. -/
@[simp] theorem fields_encodeFields (rb ra rd : PReg) (opc : BitVec 8) : opcField (encodeFields rb ra rd opc) = opc
    ∧ rdField (encodeFields rb ra rd opc) = rd ∧ raField (encodeFields rb ra rd opc) = ra
    ∧ rbField (encodeFields rb ra rd opc) = rb ∧ reservedBits (encodeFields rb ra rd opc) = 0 := by
  obtain ⟨happend, hopc⟩ := bitVec_append_inj.1 (append_fields (encodeFields rb ra rd opc))
  simp only [bitVec_append_inj] at happend
  obtain ⟨⟨⟨⟨⟨hhigh, hrb⟩, h15⟩, hra⟩, h11⟩, hrd⟩ := happend
  refine ⟨hopc, congrArg BitVec.toFin hrd, congrArg BitVec.toFin hra, congrArg BitVec.toFin hrb, ?_⟩
  rw [reservedBits, hhigh, h15, h11]
  rfl

/-! The rows (30_encoding R102, R103) -/

/-- The OPC of a row (30_encoding R103). -/
def Mnemonic.opc : Mnemonic → BitVec 8
  | .reduce => 0x01
  | .sample1 => 0x02
  | .nttFwd => 0x10
  | .nttInv => 0x11
  | .rearrange => 0x12
  | .padd => 0x20
  | .psub => 0x21
  | .pmul => 0x22
  | .sample => 0x30

/-- What a command of the format encodes in register field `k` of RD, RA, RB: the register, or 0 where the format does not use
the field (30_encoding R102). -/
def Format.field (f : Format) (k : Nat) (r : PReg) : PReg :=
  if k < f.operandCount then r else 0

/-- The bits of register field `k` that a row of the format compares: none, or all where the format does not use the field. -/
def Format.fieldMask (f : Format) (k : Nat) : PReg :=
  if k < f.operandCount then 0 else 7

theorem Format.and_fieldMask_eq_zero_iff (f : Format) (k : Nat) (r : PReg) :
    r &&& f.fieldMask k = 0 ↔ f.field k r = r := by
  unfold Format.fieldMask Format.field
  split <;> revert r <;> decide

theorem encode_command (m : Mnemonic) (rd ra rb : PReg) :
    encode (m.command rd ra rb)
      = encodeFields (m.format.field 2 rb) (m.format.field 1 ra) (m.format.field 0 rd) m.opc := by
  cases m <;> rfl

/-- A command does not depend on the register fields that its format does not use. -/
theorem command_field (m : Mnemonic) (rd ra rb : PReg) :
    m.command (m.format.field 0 rd) (m.format.field 1 ra) (m.format.field 2 rb) = m.command rd ra rb := by
  cases m <;> rfl

@[simp] theorem mnemonic_command (m : Mnemonic) (rd ra rb : PReg) : (m.command rd ra rb).mnemonic = m := by
  cases m <;> rfl

theorem exists_command (i : Instr) : ∃ (m : Mnemonic) (rd ra rb : PReg), m.command rd ra rb = i := by
  cases i with
  | reduce => exact ⟨.reduce, 0, 0, 0, rfl⟩
  | sample1 => exact ⟨.sample1, 0, 0, 0, rfl⟩
  | nttFwd rd ra => exact ⟨.nttFwd, rd, ra, 0, rfl⟩
  | nttInv rd ra => exact ⟨.nttInv, rd, ra, 0, rfl⟩
  | rearrange rd ra => exact ⟨.rearrange, rd, ra, 0, rfl⟩
  | padd rd ra rb => exact ⟨.padd, rd, ra, rb, rfl⟩
  | psub rd ra rb => exact ⟨.psub, rd, ra, rb, rfl⟩
  | pmul rd ra rb => exact ⟨.pmul, rd, ra, rb, rfl⟩
  | sample rd => exact ⟨.sample, rd, 0, 0, rfl⟩

theorem exists_row (m : Mnemonic) : ∃ r ∈ opcodeRows, r.mnemonic = m := by
  cases m <;> decide

/-- No two rows have the same OPC (30_encoding R103). -/
theorem eq_of_opc_eq {r r' : Row} (hr : r ∈ opcodeRows) (hr' : r' ∈ opcodeRows) (h : r.mnemonic.opc = r'.mnemonic.opc) :
    r = r' :=
  List.inj_on_of_nodup_map (show (opcodeRows.map fun r => r.mnemonic.opc).Nodup by decide) hr hr' h

theorem row_matchBits {r : Row} (h : r ∈ opcodeRows) : r.matchBits = encodeFields 0 0 0 r.mnemonic.opc := by
  revert r
  decide

/-- A row compares OPC, the reserved bits, and the register fields its format does not use (30_encoding R102, R103). -/
theorem row_mask {r : Row} (h : r ∈ opcodeRows) : opcField r.mask = .allOnes 8
    ∧ rdField r.mask = r.mnemonic.format.fieldMask 0 ∧ raField r.mask = r.mnemonic.format.fieldMask 1
    ∧ rbField r.mask = r.mnemonic.format.fieldMask 2 ∧ reservedBits r.mask = .allOnes 15 := by
  revert r
  decide

/-! Selection and decoding (30_encoding R103, R104) -/

/-- The command of a row with the register fields that stand in a word. -/
def Mnemonic.commandOf (m : Mnemonic) (w : Word) : Instr :=
  m.command (rdField w) (raField w) (rbField w)

/-- What a word of a row looks like (30_encoding R102): the row's OPC, 0 in the register fields not used and the reserved bits. -/
theorem encode_commandOf_eq_iff {m : Mnemonic} {w : Word} : encode (m.commandOf w) = w
    ↔ opcField w = m.opc ∧ m.format.field 0 (rdField w) = rdField w ∧ m.format.field 1 (raField w) = raField w
      ∧ m.format.field 2 (rbField w) = rbField w ∧ reservedBits w = 0 := by
  rw [Mnemonic.commandOf, encode_command, word_eq_iff]
  simp [eq_comm]

/-- A row compares just the bits that are the same in every encoding of its command (30_encoding R103). -/
theorem selects_iff {r : Row} (h : r ∈ opcodeRows) (w : Word) :
    r.selects w = true ↔ encode (r.mnemonic.commandOf w) = w := by
  obtain ⟨hopc, hrd, hra, hrb, hreserved⟩ := row_mask h
  rw [Row.selects, beq_iff_eq, row_matchBits h, word_eq_iff, encode_commandOf_eq_iff]
  simp only [fields_and, hopc, hrd, hra, hrb, hreserved, BitVec.and_allOnes, Format.and_fieldMask_eq_zero_iff,
    fields_encodeFields]

theorem opcField_of_selects {r : Row} (h : r ∈ opcodeRows) {w : Word} (hselects : r.selects w = true) :
    opcField w = r.mnemonic.opc := by
  obtain ⟨hopc, -⟩ := encode_commandOf_eq_iff.1 ((selects_iff h w).1 hselects)
  exact hopc

/-- Settles O3: a selected row has the word's OPC, and no two rows share one. -/
theorem noWordSelectsTwoRows : Obligations.NoWordSelectsTwoRows := fun _ _ _ hr hr' hselects hselects' =>
  eq_of_opc_eq hr hr' ((opcField_of_selects hr hselects).symm.trans (opcField_of_selects hr' hselects'))

/-- A word decodes to the command of the row that it selects. -/
theorem decode_of_selects {r : Row} {w : Word} (hr : r ∈ opcodeRows) (h : r.selects w = true) :
    decode w = .ok (r.mnemonic.commandOf w) := by
  have hsome : (opcodeRows.find? fun r => r.selects w).isSome = true := List.find?_isSome.2 ⟨r, hr, h⟩
  obtain ⟨r', hfind⟩ := Option.isSome_iff_exists.1 hsome
  have hselects : r'.selects w = true := by simpa using List.find?_some hfind
  obtain rfl : r' = r := noWordSelectsTwoRows w r' r (List.mem_of_find?_eq_some hfind) hr hselects h
  simp [decode, hfind, Mnemonic.commandOf]

theorem selects_of_decode {w : Word} {i : Instr} (h : decode w = .ok i) :
    ∃ r ∈ opcodeRows, r.selects w = true ∧ r.mnemonic.commandOf w = i := by
  unfold decode at h
  split at h
  case h_1 r hfind =>
    have hselects : r.selects w = true := by simpa using List.find?_some hfind
    exact ⟨r, List.mem_of_find?_eq_some hfind, hselects, Except.ok.inj h⟩
  case h_2 => cases h

/-- The fields of a command's encoding give the command back. -/
theorem commandOf_encode (i : Instr) : ∃ m : Mnemonic, m.commandOf (encode i) = i := by
  obtain ⟨m, rd, ra, rb, rfl⟩ := exists_command i
  exact ⟨m, by simp [Mnemonic.commandOf, encode_command, command_field]⟩

/-- The decoder and the encoder are inverse to each other (30_encoding R104). -/
theorem decode_eq_ok_iff {w : Word} {i : Instr} : decode w = .ok i ↔ encode i = w := by
  constructor
  · intro h
    obtain ⟨r, hr, hselects, rfl⟩ := selects_of_decode h
    exact (selects_iff hr w).1 hselects
  · rintro rfl
    obtain ⟨m, hm⟩ := commandOf_encode i
    obtain ⟨r, hr, rfl⟩ := exists_row m
    have hselects : r.selects (encode i) = true := (selects_iff hr _).2 (by rw [hm])
    rw [decode_of_selects hr hselects, hm]

/-- Settles O1, by `decode_eq_ok_iff`. -/
theorem decodeOfEncodeIsTheCommand : Obligations.DecodeOfEncodeIsTheCommand :=
  fun _ => decode_eq_ok_iff.2 rfl

/-- Settles O2, by `decode_eq_ok_iff`. -/
theorem decodedWordIsTheEncoding : Obligations.DecodedWordIsTheEncoding :=
  fun _ _ => decode_eq_ok_iff.1

/-! The illegal words (30_encoding R105) -/

theorem exists_decode_error_iff {w : Word} : (∃ e, decode w = .error e) ↔ ∀ i, decode w ≠ .ok i := by
  cases decode w <;> simp

/-- A word that has a row's OPC decodes when that row selects it. -/
theorem exists_decode_ok_iff_selects {r : Row} (hr : r ∈ opcodeRows) {w : Word} (h : opcField w = r.mnemonic.opc) :
    (∃ i, decode w = .ok i) ↔ r.selects w = true := by
  refine ⟨fun ⟨i, hi⟩ => ?_, fun hselects => ⟨_, decode_of_selects hr hselects⟩⟩
  obtain ⟨r', hr', hselects, -⟩ := selects_of_decode hi
  obtain rfl : r = r' := eq_of_opc_eq hr hr' (h.symm.trans (opcField_of_selects hr' hselects))
  exact hselects

/-- A word that has a row's OPC is illegal when a reserved bit or a register field that the row does not use is not 0. -/
theorem illegal_iff_of_opc {r : Row} (hr : r ∈ opcodeRows) {w : Word} (h : opcField w = r.mnemonic.opc) :
    (∃ e, decode w = .error e) ↔ reservedBits w ≠ 0
      ∨ ¬ (r.mnemonic.format.field 0 (rdField w) = rdField w ∧ r.mnemonic.format.field 1 (raField w) = raField w
        ∧ r.mnemonic.format.field 2 (rbField w) = rbField w) := by
  rw [exists_decode_error_iff, ← not_exists, exists_decode_ok_iff_selects hr h, selects_iff hr,
    encode_commandOf_eq_iff]
  tauto

theorem illegal_of_no_opc {w : Word} (h : ∀ r ∈ opcodeRows, r.mnemonic.opc ≠ opcField w) :
    ∃ e, decode w = .error e := by
  refine exists_decode_error_iff.2 fun i hi => ?_
  obtain ⟨r, hr, hselects, -⟩ := selects_of_decode hi
  exact h r hr (opcField_of_selects hr hselects).symm

/-- The OPCs of the rows (30_encoding R103). -/
theorem mem_opcs_iff {opc : BitVec 8} :
    opc ∈ ([0x01, 0x02, 0x10, 0x11, 0x12, 0x20, 0x21, 0x22, 0x30] : List (BitVec 8))
      ↔ ∃ r ∈ opcodeRows, r.mnemonic.opc = opc :=
  List.mem_map (l := opcodeRows) (f := fun r => r.mnemonic.opc)

theorem reservedBits_ne_zero_iff {w : Word} :
    reservedBits w ≠ 0 ↔ w.getLsbD 11 = true ∨ w.getLsbD 15 = true ∨ w.extractLsb' 19 13 ≠ 0 := by
  have hbit : ∀ x : BitVec 1, (x == 1#1) = true ↔ x ≠ 0 := by decide
  have hzero : reservedBits w = 0 ↔ w.extractLsb' 11 1 = 0 ∧ w.extractLsb' 15 1 = 0 ∧ w.extractLsb' 19 13 = 0 :=
    reservedBits_eq_iff (w := 0)
  rw [ne_eq, hzero, not_and_or, not_and_or, BitVec.getLsbD_eq_extractLsb', BitVec.getLsbD_eq_extractLsb', hbit, hbit]

/-- Which register fields a row does not use, by its OPC (30_encoding R102, R103). -/
theorem unusedField_iff (m : Mnemonic) (rd ra rb : PReg) :
    ¬ (m.format.field 0 rd = rd ∧ m.format.field 1 ra = ra ∧ m.format.field 2 rb = rb)
      ↔ (m.opc ∈ ([0x01, 0x02] : List (BitVec 8)) ∧ (rd ≠ 0 ∨ ra ≠ 0 ∨ rb ≠ 0))
        ∨ (m.opc = 0x30 ∧ (ra ≠ 0 ∨ rb ≠ 0))
        ∨ (m.opc ∈ ([0x10, 0x11, 0x12] : List (BitVec 8)) ∧ rb ≠ 0) := by
  cases m <;>
    simp [Mnemonic.opc, Mnemonic.format, Format.field, Format.operandCount, imp_iff_not_or, eq_comm (a := (0 : PReg))]

/-- Settles O4, by the row whose OPC the word has, if there is one. -/
theorem illegalWordsAreTheReservedOnes : Obligations.IllegalWordsAreTheReservedOnes := by
  intro w
  by_cases hrow : ∃ r ∈ opcodeRows, r.mnemonic.opc = opcField w
  · obtain ⟨r, hr, hopc⟩ := hrow
    rw [illegal_iff_of_opc hr hopc.symm, reservedBits_ne_zero_iff, unusedField_iff, hopc, or_assoc, or_assoc]
    exact (or_iff_right (not_not.2 (mem_opcs_iff.2 ⟨r, hr, hopc⟩))).symm
  · refine ⟨fun _ => .inl (mt mem_opcs_iff.1 hrow), fun _ => illegal_of_no_opc fun r hr hopc => hrow ⟨r, hr, hopc⟩⟩

/-- Settles O5, by the encodings of the listed commands. -/
theorem listedWordsDecode : Obligations.ListedWordsDecode := by
  refine ⟨decode_eq_ok_iff.2 rfl, decode_eq_ok_iff.2 rfl, decode_eq_ok_iff.2 rfl, decode_eq_ok_iff.2 rfl,
    decode_eq_ok_iff.2 rfl, decode_eq_ok_iff.2 rfl, decode_eq_ok_iff.2 rfl, decode_eq_ok_iff.2 rfl,
    decode_eq_ok_iff.2 rfl, ⟨.unassignedOpcode, rfl⟩, ⟨.unusedField, rfl⟩, ⟨.reservedBits, rfl⟩⟩

end Sys2Proof

/-! SUPPORT. What the assembler takes and what it refuses (30_encoding R110). -/

namespace Sys2Proof.Machine

theorem assembleLine_of_wellFormed {l : AsmLine} (h : l.WellFormed) :
    assembleLine l = .ok (l.mnemonic.command (operandAt l 0) (operandAt l 1) (operandAt l 2)) := by
  obtain ⟨hcount, hregs⟩ := h
  rw [assembleLine, if_neg (not_not.2 hcount), if_neg (by simpa using hregs)]

theorem assembleLine_of_not_wellFormed {l : AsmLine} (h : ¬ l.WellFormed) : ∃ e, assembleLine l = .error e := by
  by_cases hcount : l.operands.length = l.mnemonic.format.operandCount
  · have hregs : l.operands.any (fun r => 8 ≤ r) = true := by simpa [AsmLine.WellFormed, hcount] using h
    exact ⟨.registerNumber, by rw [assembleLine, if_neg (not_not.2 hcount), if_pos hregs]⟩
  · exact ⟨.operandCount, if_pos hcount⟩

/-- Register field `k` of a well-formed line's command holds operand `k`, and 0 where there is none. -/
theorem field_operandAt {l : AsmLine} (h : l.WellFormed) (k : Nat) :
    (l.mnemonic.format.field k (operandAt l k)).val = l.operands.getD k 0 := by
  obtain ⟨hcount, hregs⟩ := h
  unfold Format.field
  rw [← hcount]
  split
  case isTrue hk =>
    rw [operandAt, Fin.val_ofNat, List.getD_eq_getElem _ _ hk]
    exact Nat.mod_eq_of_lt (hregs _ (List.getElem_mem hk))
  case isFalse hk =>
    rw [List.getD_eq_default _ _ (not_lt.1 hk)]
    rfl

/-- Settles O7: the encoding of the line's command has the line's operands in its register fields. -/
theorem assemblerTakesExactlyWellFormedLines : Obligations.AssemblerTakesExactlyWellFormedLines := by
  refine fun l => ⟨fun h => ⟨_, assembleLine_of_wellFormed h, mnemonic_command .., ?_⟩, assembleLine_of_not_wellFormed⟩
  simp only [encode_command, fields_encodeFields]
  exact ⟨field_operandAt h 0, field_operandAt h 1, field_operandAt h 2⟩

end Sys2Proof.Machine

/-! SUPPORT. A command from its issue (30_encoding R106) to its completion (R107). -/

namespace Sys2Proof.Machine

/-- Every command ends with BUSY 0 and DONE 1 (30_encoding R107). -/
theorem exec_complete (i : Instr) (s : State) : ∃ t : State, exec i s = .next t.complete := by
  obtain ⟨-, h⟩ | ⟨rd, f, -, -, -, -, h⟩ | ⟨-, h⟩ | ⟨rd, -, h⟩ := exec_cases i s
  · exact ⟨_, h⟩
  · exact ⟨_, h⟩
  · rw [h, State.finishSample1]
    split <;> exact ⟨_, rfl⟩
  · rw [h, State.finishSample]
    split <;> exact ⟨_, rfl⟩

/-- Settles O30, by `exec_complete` and `exec_sameSetup`. -/
theorem everyCommandCompletes : Obligations.EveryCommandCompletes := by
  intro i s
  obtain ⟨t, ht⟩ := exec_complete i s
  obtain ⟨t', ht', setup⟩ := exec_sameSetup i s
  obtain rfl := Host.Outcome.next.inj (ht'.symm.trans ht)
  exact ⟨_, ht, rfl, rfl, setup⟩

/-! Issue (30_encoding R106) -/

/-- A rejection as an exact state. -/
theorem State.reject_eq (c : ErrCode) (s : State) :
    s.reject c = { s with done := true, err := if s.err = .none then c else s.err } :=
  State.raise_eq c { s with done := true }

theorem State.issue_of_illegal {w : Word} (h : ∀ i, decode w ≠ .ok i) (s : State) : s.issue w = s.reject .illegal := by
  obtain ⟨e, he⟩ := exists_decode_error_iff.2 h
  simp [State.issue, he]

theorem State.issue_of_legal {w : Word} (h : ∃ i, decode w = .ok i) (s : State) :
    s.issue w = if s.configured = true then s.accept w else s.reject .state := by
  obtain ⟨i, hi⟩ := h
  simp [State.issue, hi]

/-- Settles O44: the write is dropped while busy, and is `State.issue` otherwise. -/
theorem commandIssue : Obligations.CommandIssue := by
  intro s w
  dsimp only
  rw [busWrite_offset s w (r := .cmd) rfl, writeReg]
  refine ⟨fun busy => ?_, fun idle illegal => ?_, fun idle legal unconf => ?_, fun idle legal conf => ?_⟩
  · rw [State.unlessBusy, if_pos busy, State.raise_eq]
  · rw [State.unlessBusy_of_idle idle, State.issue_of_illegal illegal, State.reject_eq]
  · rw [State.unlessBusy_of_idle idle, State.issue_of_legal legal, if_neg (by simp [unconf]), State.reject_eq]
  · rw [State.unlessBusy_of_idle idle, State.issue_of_legal legal, if_pos conf, State.accept]

/-! Completion (30_encoding R107) -/

/-- Settles O51: the turn is `engineTurn` in the state after the turn is taken. -/
theorem engineStepRunsTheDecodedCommand : Obligations.EngineStepRunsTheDecodedCommand := by
  intro s i hagent hbusy hdecode
  rw [step_eq_takeTurn, hagent, takeTurn, engineTurn, State.afterTurn_busy, if_pos hbusy, State.afterTurn_pend, hdecode]
  rfl

/-- Settles O60: the invariant makes PEND a legal command, which completes by `exec_complete`. -/
theorem commandInFlightCompletes : Obligations.CommandInFlightCompletes := by
  intro s hpend hbusy hagent
  obtain ⟨-, i, hdecode⟩ := hpend hbusy
  obtain ⟨t, ht⟩ := exec_complete i { s with turns := s.turns.tail }
  exact ⟨t.complete, (engineStepRunsTheDecodedCommand s i hagent hbusy hdecode).trans ht, rfl, rfl⟩

end Sys2Proof.Machine

/-! SUPPORT. The modular reduction (40 R130) as a congruence: two integers reduce alike exactly when they agree mod q. -/

namespace Sys2Proof.Machine

theorem reduceQ_eq_reduceQ_iff {q : Nat} (hq : 0 < q) {x y : Int} : reduceQ q x = reduceQ q y ↔ x ≡ y [ZMOD q] := by
  rw [← Nat.cast_inj (R := Int), reduceQ_eq_emod hq, reduceQ_eq_emod hq, Int.ModEq]

theorem reduceQ_modEq {q : Nat} (hq : 0 < q) (x : Int) : (reduceQ q x : Int) ≡ x [ZMOD q] := by
  rw [reduceQ_eq_emod hq]
  exact Int.mod_modEq x q

theorem reduceQ_eq_zero_iff {q : Nat} (hq : 0 < q) {x : Int} : reduceQ q x = 0 ↔ (q : Int) ∣ x := by
  rw [← Nat.cast_eq_zero (R := Int), reduceQ_eq_emod hq, Int.dvd_iff_emod_eq_zero]

/-- The fifth law of 40 R131. -/
theorem reduceQ_neg {q : Nat} (hq : 0 < q) (x : Int) :
    reduceQ q (-x) = if reduceQ q x = 0 then 0 else q - reduceQ q x := by
  have hlt := reduceQ_lt hq x
  split
  case isTrue h => rwa [reduceQ_eq_zero_iff hq, dvd_neg, ← reduceQ_eq_zero_iff hq]
  case isFalse h =>
    zify [hlt.le]
    rw [reduceQ_eq_emod hq, reduceQ_eq_emod hq, Int.neg_emod, if_neg (mt (reduceQ_eq_zero_iff hq).2 h),
      Int.natAbs_natCast]

/-- Settles O8: the laws are congruences mod q, by `reduceQ_eq_reduceQ_iff` and `reduceQ_modEq`. -/
theorem reductionLaws : Obligations.ReductionLaws := by
  intro p x y
  have hq := ParamSet.q_pos p
  have hx := (reduceQ_modEq hq x).symm
  have hy := (reduceQ_modEq hq y).symm
  refine ⟨reduceQ_lt hq x, fun h0 hlt => ?_, fun k => ?_, ⟨?_, ?_, ?_⟩, reduceQ_neg hq x, ?_, ?_⟩
  · rw [reduceQ_eq_emod hq, Int.emod_eq_of_lt h0 hlt]
  · exact (reduceQ_eq_reduceQ_iff hq).2 (Int.add_mul_modulus_modEq_iff.2 rfl)
  · exact (reduceQ_eq_reduceQ_iff hq).2 (hx.add hy)
  · exact (reduceQ_eq_reduceQ_iff hq).2 (hx.sub hy)
  · exact (reduceQ_eq_reduceQ_iff hq).2 (hx.mul hy)
  · exact (reduceQ_eq_zero_iff hq).2 dvd_rfl
  · exact (reduceQ_eq_zero_iff hq).2 (dvd_neg.2 dvd_rfl)

/-! REDUCE (40 R133) -/

theorem exec_reduce (s : State) :
    exec .reduce s = .next (State.complete { s with result := BitVec.ofNat 32 (reduceQ s.q s.xOperand) }) := rfl

/-- A remainder mod q fits RESULT (10_state R43). -/
theorem toNat_ofNat32_reduceQ (p : ParamSet) (x : Int) : (BitVec.ofNat 32 (reduceQ p.q x)).toNat = reduceQ p.q x := by
  have hlt := reduceQ_lt (ParamSet.q_pos p) x
  have hq := ParamSet.q_lt p
  rw [BitVec.toNat_ofNat]
  omega

/-- X as an integer, the sign being bit 31 of X_HI (40 R132). -/
theorem State.xOperand_eq (s : State) : s.xOperand
    = (s.xHi.toNat : Int) * 2 ^ 32 + s.xLo.toNat - (if s.xHi.getLsbD 31 then 2 ^ 64 else 0) := by
  rw [State.xOperand, BitVec.toInt_append, if_neg (by decide), BitVec.toInt_eq_msb_cond s.xHi,
    BitVec.msb_eq_getLsbD_last]
  split <;> omega

/-- Settles O9: REDUCE completes with RESULT replaced, and the value is `reduceQ_eq_emod` at `State.xOperand_eq`. -/
theorem reduceGivesXModQ : Obligations.ReduceGivesXModQ := by
  intro s
  obtain ⟨t, ht, setup⟩ := exec_sameSetup .reduce s
  refine ⟨t, ht, ?_⟩
  obtain rfl := Host.Outcome.next.inj ((exec_reduce s).symm.trans ht)
  refine ⟨?_, fun _ _ => rfl, rfl, ⟨rfl, rfl, rfl⟩, setup⟩
  rw [← State.xOperand_eq]
  exact (congrArg Nat.cast (toNat_ofNat32_reduceQ s.pset s.xOperand)).trans
    (reduceQ_eq_emod (ParamSet.q_pos s.pset) s.xOperand)

end Sys2Proof.Machine

/-! SUPPORT. Bit reversal (41 R152): the bits of the reversed index, the involution, and the recursion from the most significant
bit. Rearranging (R155) is reading at the reversed index. -/

namespace Sys2Proof.Machine

theorem testBit_bitrev {n i b : Nat} (hb : b < n) : (bitrev n i).testBit b = i.testBit (n - 1 - b) := by
  induction n generalizing i b with
  | zero => omega
  | succ n ih =>
    rw [bitrev, Nat.mul_comm, Nat.testBit_two_pow_mul_add _ (bitrev_lt n _)]
    split
    case isTrue h =>
      rw [ih h, Nat.testBit_div_two]
      congr 1
      omega
    case isFalse h =>
      obtain rfl : b = n := by omega
      simp

theorem bitrev_bitrev {n i : Nat} (hi : i < 2 ^ n) : bitrev n (bitrev n i) = i := by
  refine Nat.eq_of_testBit_eq fun b => ?_
  by_cases hb : b < n
  · rw [testBit_bitrev hb, testBit_bitrev (by omega)]
    congr 1
    omega
  · have hle : 2 ^ n ≤ 2 ^ b := Nat.pow_le_pow_right (by decide) (by omega)
    rw [Nat.testBit_lt_two_pow ((bitrev_lt n _).trans_le hle), Nat.testBit_lt_two_pow (hi.trans_le hle)]

/-- The bit that a longer form adds at the top of the index comes out at the bottom. -/
theorem bitrev_succ_top (n i : Nat) : bitrev (n + 1) i = 2 * bitrev n i + i / 2 ^ n % 2 := by
  induction n generalizing i with
  | zero => simp [bitrev]
  | succ n ih =>
    rw [bitrev, ih, bitrev, Nat.div_div_eq_div_mul, ← Nat.pow_succ']
    ring

/-- Settles O10: the bits are `testBit_bitrev`, the involution `bitrev_bitrev`, and the examples are evaluated. -/
theorem bitReversal : Obligations.BitReversal := by
  refine ⟨⟨rfl, rfl, ParamSet.n_eq⟩, fun n i hi => ⟨bitrev_lt n i, fun b hb => testBit_bitrev hb, bitrev_bitrev hi⟩, ?_, ?_⟩
  · decide
  · decide

theorem bitrev_logN_lt (p : ParamSet) (i : Nat) : bitrev p.logN i < p.n :=
  (bitrev_lt _ _).trans_eq (ParamSet.n_eq p).symm

theorem bitrev_logN_bitrev (p : ParamSet) {i : Nat} (hi : i < p.n) : bitrev p.logN (bitrev p.logN i) = i :=
  bitrev_bitrev (hi.trans_eq (ParamSet.n_eq p))

/-- Settles O11: a reversed index reversed is the index. -/
theorem rearrangeIsItsOwnInverse : Obligations.RearrangeIsItsOwnInverse := fun p a _ hi =>
  ⟨rfl, congrArg a (bitrev_logN_bitrev p hi)⟩

end Sys2Proof.Machine

/-! SUPPORT. Roots of unity in an integral domain (41 R150): with ψ of order 2N and inverse φ, a sequence of N values is found
again from the values of its polynomial at the N odd powers of ψ, and at each of them the negacyclic product is the product. -/

namespace Sys2Proof.Machine

section RootsOfUnity

variable {R : Type*} [CommRing R] {N : Nat}

/-- The negacyclic product's values where x^N = -1: entry `m` of the product with x^i is entry `m - i`, or its negative from
beyond the end. -/
theorem sum_shift_mul_pow {x : R} (hx : x ^ N = -1) (b : Nat → R) {i : Nat} (hi : i < N) :
    ∑ m ∈ Finset.range N, ((if i ≤ m then b (m - i) else 0) - if m < i then b (m + N - i) else 0) * x ^ m
      = x ^ i * ∑ j ∈ Finset.range N, b j * x ^ j := by
  obtain ⟨t, rfl⟩ := Nat.exists_eq_add_of_lt hi
  rw [add_assoc] at hx ⊢
  generalize t + 1 = t at hx ⊢
  have low : ∀ m ∈ Finset.range i,
      ((if i ≤ m then b (m - i) else 0) - if m < i then b (m + (i + t) - i) else 0) * x ^ m
        = x ^ i * (b (t + m) * x ^ (t + m)) := fun m hm => by
    have hlt := Finset.mem_range.1 hm
    rw [if_neg (by omega), if_pos hlt, show m + (i + t) - i = t + m by omega]
    linear_combination -(b (t + m) * x ^ m) * hx
  have high : ∀ m ∈ Finset.range t,
      ((if i ≤ i + m then b (i + m - i) else 0) - if i + m < i then b (i + m + (i + t) - i) else 0) * x ^ (i + m)
        = x ^ i * (b m * x ^ m) := fun m _ => by
    rw [if_pos (by omega), if_neg (by omega), Nat.add_sub_cancel_left]
    ring
  rw [Finset.sum_range_add, Finset.sum_congr rfl low, Finset.sum_congr rfl high, ← Finset.mul_sum, ← Finset.mul_sum,
    ← mul_add, add_comm i t, Finset.sum_range_add, add_comm]

theorem negacyclic_eval {x : R} (hx : x ^ N = -1) (a b : Nat → R) :
    ∑ m ∈ Finset.range N, ((∑ i ∈ Finset.range N, if i ≤ m then a i * b (m - i) else 0)
        - ∑ i ∈ Finset.range N, if m < i then a i * b (m + N - i) else 0) * x ^ m
      = (∑ i ∈ Finset.range N, a i * x ^ i) * ∑ j ∈ Finset.range N, b j * x ^ j := by
  simp_rw [← Finset.sum_sub_distrib, Finset.sum_mul]
  rw [Finset.sum_comm]
  refine Finset.sum_congr rfl fun i hi => ?_
  rw [mul_assoc, ← sum_shift_mul_pow hx b (Finset.mem_range.1 hi), Finset.mul_sum]
  refine Finset.sum_congr rfl fun m _ => ?_
  split_ifs <;> ring

variable [IsDomain R] {ψ φ : R}

theorem pow_half_order (hψ : IsPrimitiveRoot ψ (2 * N)) (hN : 0 < N) : ψ ^ N = -1 :=
  (hψ.pow (by omega) (Nat.mul_comm 2 N)).eq_neg_one_of_two_right

theorem inv_pow_half_order (hψ : IsPrimitiveRoot ψ (2 * N)) (hφ : ψ * φ = 1) (hN : 0 < N) : φ ^ N = -1 := by
  linear_combination φ ^ N * pow_half_order hψ hN - pow_mul_pow_eq_one N hφ

/-- The orthogonality of the powers of ψ: a ratio of two of them is an N-th root of unity when both exponents are even or both
odd, and its powers sum to 0 when it is not 1. -/
theorem geom_sum_root_ratio (hψ : IsPrimitiveRoot ψ (2 * N)) (hφ : ψ * φ = 1) {u v : Nat} (hu : u < 2 * N) (hv : v < 2 * N)
    (heven : Even (u + v)) : ∑ k ∈ Finset.range N, (ψ ^ u * φ ^ v) ^ k = if u = v then (N : R) else 0 := by
  have hinv (k : Nat) : ψ ^ k * φ ^ k = 1 := pow_mul_pow_eq_one k hφ
  split
  case isTrue h => simp [h, hinv]
  case isFalse h =>
    have hN : 0 < N := by omega
    have hroot : (ψ ^ u * φ ^ v) ^ N = 1 := by
      rw [mul_pow, pow_right_comm, pow_right_comm φ, pow_half_order hψ hN, inv_pow_half_order hψ hφ hN,
        ← pow_add, heven.neg_one_pow]
    have hne : ψ ^ u * φ ^ v ≠ 1 := fun h1 =>
      h (hψ.pow_inj hu hv (mul_right_cancel₀ (right_ne_zero_of_mul_eq_one (hinv v)) (h1.trans (hinv v).symm)))
    have hmul := mul_geom_sum (ψ ^ u * φ ^ v) N
    rw [hroot, sub_self] at hmul
    exact (mul_eq_zero.1 hmul).resolve_left (sub_ne_zero.2 hne)

/-- Interpolation undoes evaluation at the odd powers of ψ, but for the factor N. -/
theorem interpolate_eval (hψ : IsPrimitiveRoot ψ (2 * N)) (hφ : ψ * φ = 1) (a : Nat → R) {i : Nat} (hi : i < N) :
    ∑ k ∈ Finset.range N, (∑ j ∈ Finset.range N, a j * (ψ ^ (2 * k + 1)) ^ j) * φ ^ ((2 * k + 1) * i) = N * a i := by
  have orthogonal : ∀ j ∈ Finset.range N,
      ∑ k ∈ Finset.range N, a j * (ψ ^ (2 * k + 1)) ^ j * φ ^ ((2 * k + 1) * i) = if j = i then N * a i else 0 :=
    fun j hj => by
      have hjN := Finset.mem_range.1 hj
      have hsum := geom_sum_root_ratio hψ hφ (u := 2 * j) (v := 2 * i) (by omega) (by omega) (by simp [parity_simps])
      calc _ = a j * (ψ ^ j * φ ^ i) * ∑ k ∈ Finset.range N, (ψ ^ (2 * j) * φ ^ (2 * i)) ^ k := by
            rw [Finset.mul_sum]
            exact Finset.sum_congr rfl fun k _ => by ring
        _ = _ := by
            obtain rfl | hne := eq_or_ne j i
            · rw [hsum, if_pos rfl, if_pos rfl, pow_mul_pow_eq_one j hφ, mul_one, mul_comm]
            · rw [hsum, if_neg (by omega), if_neg hne, mul_zero]
  simp_rw [Finset.sum_mul]
  rw [Finset.sum_comm, Finset.sum_congr rfl orthogonal, Finset.sum_ite_eq' , if_pos (Finset.mem_range.2 hi)]

/-- Evaluation at the odd powers of ψ undoes interpolation, but for the factor N. -/
theorem eval_interpolate (hψ : IsPrimitiveRoot ψ (2 * N)) (hφ : ψ * φ = 1) (b : Nat → R) {l : Nat} (hl : l < N) :
    ∑ j ∈ Finset.range N, (∑ k ∈ Finset.range N, b k * φ ^ ((2 * k + 1) * j)) * (ψ ^ (2 * l + 1)) ^ j = N * b l := by
  have orthogonal : ∀ k ∈ Finset.range N,
      ∑ j ∈ Finset.range N, b k * φ ^ ((2 * k + 1) * j) * (ψ ^ (2 * l + 1)) ^ j = if k = l then N * b l else 0 :=
    fun k hk => by
      have hkN := Finset.mem_range.1 hk
      have hsum := geom_sum_root_ratio hψ hφ (u := 2 * l + 1) (v := 2 * k + 1) (by omega) (by omega)
        (by simp [parity_simps])
      calc _ = b k * ∑ j ∈ Finset.range N, (ψ ^ (2 * l + 1) * φ ^ (2 * k + 1)) ^ j := by
            rw [Finset.mul_sum]
            exact Finset.sum_congr rfl fun j _ => by ring
        _ = _ := by
            obtain rfl | hne := eq_or_ne k l
            · rw [hsum, if_pos rfl, if_pos rfl, mul_comm]
            · rw [hsum, if_neg (by omega), if_neg hne, mul_zero]
  simp_rw [Finset.sum_mul]
  rw [Finset.sum_comm, Finset.sum_congr rfl orthogonal, Finset.sum_ite_eq', if_pos (Finset.mem_range.2 hl)]

end RootsOfUnity

end Sys2Proof.Machine

/-! SUPPORT. The closed forms of the transform (41 R153, R154) as sums in ℤ/q, the field in which ψ is a root of unity (R150), and
the contract between them (R156, R157). -/

namespace Sys2Proof.Machine

theorem ParamSet.q_prime (p : ParamSet) : p.q.Prime := by cases p <;> norm_num [ParamSet.q]

theorem isDomain_zmod (p : ParamSet) : IsDomain (ZMod p.q) :=
  have : Fact p.q.Prime := ⟨ParamSet.q_prime p⟩
  inferInstance

theorem cast_reduceQ (p : ParamSet) (x : Int) : (reduceQ p.q x : ZMod p.q) = x := by
  rw [← Int.cast_natCast, ZMod.intCast_eq_intCast_iff]
  exact reduceQ_modEq (ParamSet.q_pos p) x

theorem eq_of_cast_eq {q x y : Nat} (hx : x < q) (hy : y < q) (h : (x : ZMod q) = y) : x = y :=
  ((ZMod.natCast_eq_natCast_iff x y q).1 h).eq_of_lt_of_lt hx hy

/-- A reduction is known by its class mod q. -/
theorem reduceQ_eq_of_cast {p : ParamSet} {x : Int} {y : Nat} (hy : y < p.q) (h : (x : ZMod p.q) = y) : reduceQ p.q x = y :=
  eq_of_cast_eq (reduceQ_lt (ParamSet.q_pos p) x) hy ((cast_reduceQ p x).trans h)

theorem ParamSet.n_pos (p : ParamSet) : 0 < p.n := by cases p <;> decide

/-! The root (41 R151) -/

theorem psiOk_of_valid {c : Config} (h : c.Valid) (p : ParamSet) : p.PsiOk (c.psi p) := by
  cases p
  · exact h.psi0
  · exact h.psi1

theorem mod_eq_one_iff (p : ParamSet) (x : Nat) : x % p.q = 1 ↔ (x : ZMod p.q) = 1 := by
  have h := ZMod.natCast_eq_natCast_iff' x 1 p.q
  rwa [Nat.mod_eq_of_lt (ParamSet.q_prime p).one_lt, Nat.cast_one, Iff.comm] at h

theorem isPrimitiveRoot_psi {c : Config} (h : c.Valid) (p : ParamSet) :
    IsPrimitiveRoot (c.psi p : ZMod p.q) (2 * p.n) := by
  obtain ⟨hone, hne⟩ := psiOk_of_valid h p
  simp only [ne_eq, mod_eq_one_iff, Nat.cast_pow] at hone hne
  exact .mk_of_lt _ (Nat.mul_pos two_pos (ParamSet.n_pos p)) hone fun k hpos hlt => hne k hlt hpos

theorem psi_mul_psiInv {c : Config} (h : c.Valid) (p : ParamSet) : (c.psi p : ZMod p.q) * c.psiInv p = 1 := by
  rw [Config.psiInv, ZMod.natCast_mod, Nat.cast_pow, ← pow_succ', Nat.sub_add_cancel (Nat.mul_pos two_pos (ParamSet.n_pos p))]
  exact (isPrimitiveRoot_psi h p).pow_eq_one

theorem nInv_mul_n (p : ParamSet) : (p.nInv : ZMod p.q) * p.n = 1 := by
  rw [← Nat.cast_mul, ← mod_eq_one_iff]
  cases p <;> rfl

theorem cast_rootPow {p : ParamSet} {root : Nat} (h : (root : ZMod p.q) ^ (2 * p.n) = 1) (e : Nat) :
    (rootPow p root e : ZMod p.q) = root ^ e := by
  rw [rootPow, ZMod.natCast_mod, Nat.cast_pow, ← pow_eq_pow_mod e h]

/-! The closed forms -/

/-- `forward` evaluates the polynomial at the odd powers of ψ (41 R153). -/
theorem cast_forward {c : Config} (h : c.Valid) (p : ParamSet) (a : Nat → Nat) (i : Nat) :
    (forward c p a i : ZMod p.q)
      = ∑ j ∈ Finset.range p.n, (a j : ZMod p.q) * ((c.psi p : ZMod p.q) ^ (2 * bitrev p.logN i + 1)) ^ j := by
  rw [forward, cast_reduceQ, sumTo_eq_sum]
  push_cast
  refine Finset.sum_congr rfl fun j _ => ?_
  rw [cast_rootPow (isPrimitiveRoot_psi h p).pow_eq_one, ← pow_mul, Nat.mul_comm j]

/-- `inverse` interpolates, with any inverse of ψ (41 R154). -/
theorem cast_inverse {c : Config} (h : c.Valid) (p : ParamSet) {φ : ZMod p.q} (hφ : c.psi p * φ = 1) (b : Nat → Nat) (i : Nat) :
    (inverse c p b i : ZMod p.q)
      = p.nInv * ∑ k ∈ Finset.range p.n, (b k : ZMod p.q) * φ ^ ((2 * k + 1) * bitrev p.logN i) := by
  have hpsiInv : (c.psiInv p : ZMod p.q) = φ := left_inv_eq_right_inv ((mul_comm _ _).trans (psi_mul_psiInv h p)) hφ
  have hone : (c.psiInv p : ZMod p.q) ^ (2 * p.n) = 1 := by
    have hpow := pow_mul_pow_eq_one (2 * p.n) (psi_mul_psiInv h p)
    rwa [(isPrimitiveRoot_psi h p).pow_eq_one, one_mul] at hpow
  rw [inverse, cast_reduceQ, sumTo_eq_sum]
  push_cast
  congr 1
  refine Finset.sum_congr rfl fun k _ => ?_
  rw [cast_rootPow hone, hpsiInv]

theorem forward_lt (c : Config) (p : ParamSet) (a : Nat → Nat) (i : Nat) : forward c p a i < p.q :=
  reduceQ_lt (ParamSet.q_pos p) _

theorem inverse_lt (c : Config) (p : ParamSet) (b : Nat → Nat) (i : Nat) : inverse c p b i < p.q :=
  reduceQ_lt (ParamSet.q_pos p) _

/-! The contract (41 R156, R157) -/

/-- The inverse transform between two rearrangements interpolates in natural order. -/
theorem cast_rearranged_inverse {c : Config} (h : c.Valid) (p : ParamSet) (b : Nat → Nat) {i : Nat} (hi : i < p.n) :
    (rearrange p (inverse c p (rearrange p b)) i : ZMod p.q)
      = p.nInv * ∑ k ∈ Finset.range p.n, (b (bitrev p.logN k) : ZMod p.q) * c.psiInv p ^ ((2 * k + 1) * i) := by
  rw [rearrange, cast_inverse h p (psi_mul_psiInv h p), bitrev_logN_bitrev p hi]
  rfl

/-- Settles O15: `interpolate_eval`, read at the reversed indices. -/
theorem transformContract : Obligations.TransformContract := by
  intro c p a hc ha i hi
  have := isDomain_zmod p
  refine eq_of_cast_eq (inverse_lt c p _ _) (ha i hi) ?_
  have points : ∀ k ∈ Finset.range p.n, (forward c p a (bitrev p.logN k) : ZMod p.q) * c.psiInv p ^ ((2 * k + 1) * i)
      = (∑ j ∈ Finset.range p.n, (a j : ZMod p.q) * ((c.psi p : ZMod p.q) ^ (2 * k + 1)) ^ j)
        * c.psiInv p ^ ((2 * k + 1) * i) := fun k hk => by
    rw [cast_forward hc, bitrev_logN_bitrev p (Finset.mem_range.1 hk)]
  rw [cast_rearranged_inverse hc p _ hi, Finset.sum_congr rfl points,
    interpolate_eval (isPrimitiveRoot_psi hc p) (psi_mul_psiInv hc p) (fun j => (a j : ZMod p.q)) hi,
    ← mul_assoc, nInv_mul_n, one_mul]

/-- Settles O16: `eval_interpolate`, read at the reversed indices. -/
theorem forwardUndoesTheRearrangedInverse : Obligations.ForwardUndoesTheRearrangedInverse := by
  intro c p b hc hb i hi
  have := isDomain_zmod p
  refine eq_of_cast_eq (forward_lt c p _ _) (hb i hi) ?_
  have coefficients : ∀ j ∈ Finset.range p.n,
      (rearrange p (inverse c p (rearrange p b)) j : ZMod p.q) * ((c.psi p : ZMod p.q) ^ (2 * bitrev p.logN i + 1)) ^ j
      = p.nInv * ((∑ k ∈ Finset.range p.n, (b (bitrev p.logN k) : ZMod p.q) * c.psiInv p ^ ((2 * k + 1) * j))
        * ((c.psi p : ZMod p.q) ^ (2 * bitrev p.logN i + 1)) ^ j) := fun j hj => by
    rw [cast_rearranged_inverse hc p b (Finset.mem_range.1 hj), mul_assoc]
  rw [cast_forward hc, Finset.sum_congr rfl coefficients, ← Finset.mul_sum,
    eval_interpolate (isPrimitiveRoot_psi hc p) (psi_mul_psiInv hc p) (fun k => (b (bitrev p.logN k) : ZMod p.q))
      (bitrev_logN_lt p i), bitrev_logN_bitrev p hi, ← mul_assoc, nInv_mul_n, one_mul]

/-! The ring's operations (41 R158) -/

/-- Evaluation at a root of x^N + 1 takes the negacyclic product to the product (41 R150). -/
theorem cast_forward_ringMul {c : Config} (h : c.Valid) (p : ParamSet) (a b : Nat → Nat) (i : Nat) :
    (forward c p (ringMul p a b) i : ZMod p.q) = forward c p a i * forward c p b i := by
  have := isDomain_zmod p
  have hroot : ((c.psi p : ZMod p.q) ^ (2 * bitrev p.logN i + 1)) ^ p.n = -1 := by
    rw [pow_right_comm, pow_half_order (isPrimitiveRoot_psi h p) (ParamSet.n_pos p), Odd.neg_one_pow (by simp)]
  rw [cast_forward h, cast_forward h p a, cast_forward h p b, ← negacyclic_eval hroot]
  refine Finset.sum_congr rfl fun m _ => ?_
  rw [ringMul, cast_reduceQ, sumTo_eq_sum, sumTo_eq_sum]
  push_cast
  rfl

theorem rearranged_inverse_congr {c : Config} (h : c.Valid) (p : ParamSet) {b b' : Nat → Nat} (hb : ∀ k < p.n, b k = b' k)
    {i : Nat} (hi : i < p.n) :
    rearrange p (inverse c p (rearrange p b)) i = rearrange p (inverse c p (rearrange p b')) i := by
  refine eq_of_cast_eq (inverse_lt c p _ _) (inverse_lt c p _ _) ?_
  rw [cast_rearranged_inverse h p b hi, cast_rearranged_inverse h p b' hi]
  refine congrArg _ (Finset.sum_congr rfl fun k _ => ?_)
  rw [hb _ (bitrev_logN_lt p k)]

/-- Settles O17: the product is `cast_forward_ringMul`, its inverse image is the contract at it, and the sum and the difference are
`cast_forward` term by term. -/
theorem pointwiseProductIsTheRingProduct : Obligations.PointwiseProductIsTheRingProduct := by
  intro c p a b hc _ _ i hi
  have product (k : Nat) : pointwiseMul p (forward c p a) (forward c p b) k = forward c p (ringMul p a b) k :=
    reduceQ_eq_of_cast (forward_lt c p _ k) (by push_cast; exact (cast_forward_ringMul hc p a b k).symm)
  refine ⟨product i, ?_, reduceQ_eq_of_cast (forward_lt c p _ i) ?_, reduceQ_eq_of_cast (forward_lt c p _ i) ?_⟩
  · rw [rearranged_inverse_congr hc p (fun k _ => product k) hi]
    exact transformContract c p _ hc (fun m _ => reduceQ_lt (ParamSet.q_pos p) _) i hi
  · push_cast
    simp only [cast_forward hc, cast_reduceQ, ← Finset.sum_add_distrib]
    exact Finset.sum_congr rfl fun j _ => by push_cast; ring
  · push_cast
    simp only [cast_forward hc, cast_reduceQ, ← Finset.sum_sub_distrib]
    exact Finset.sum_congr rfl fun j _ => by push_cast; ring

end Sys2Proof.Machine

/-! SUPPORT. The transform commands (41 R160 to R162): each writes a ring element, and its lanes are the closed forms. -/

namespace Sys2Proof.Machine

/-- A command that ends by writing a ring element, whose lanes fit a coefficient. -/
theorem State.wroteRing_complete_setRing (s : State) (rd : PReg) {f g : Nat → Nat}
    (h : ∀ i < s.n, f i = g i ∧ g i < 2 ^ 14) : s.WroteRing (State.complete (s.setRing rd f)) rd g where
  lanes i hi := by
    obtain ⟨hfg, hlt⟩ := h i hi
    rw [State.coef_complete, State.coef_setRing, if_pos ⟨rfl, hi⟩, hfg, Nat.mod_eq_of_lt hlt]
  above i hi := by rw [State.coef_complete, State.coef_setRing, if_neg (by omega)]
  others k i hk := by rw [State.coef_complete, State.coef_setRing, if_neg fun hkr => hk hkr.1]
  result := rfl
  bits := rfl
  flags := ⟨rfl, rfl, rfl⟩
  setup := s.sameSetup_complete_setRing rd f

theorem exec_nttFwd (rd ra : PReg) (s : State) :
    exec (.nttFwd rd ra) s = .next (State.complete (s.setRing rd (forward s.config s.pset (s.coef ra)))) := rfl

theorem exec_nttInv (rd ra : PReg) (s : State) :
    exec (.nttInv rd ra) s = .next (State.complete (s.setRing rd (inverse s.config s.pset (s.coef ra)))) := rfl

theorem exec_rearrange (rd ra : PReg) (s : State) :
    exec (.rearrange rd ra) s = .next (State.complete (s.setRing rd (rearrange s.pset (s.coef ra)))) := rfl

theorem mod_q_lt (p : ParamSet) (x : Nat) : x % p.q < 2 ^ 14 :=
  (Nat.mod_lt x (ParamSet.q_pos p)).trans (ParamSet.q_lt p)

/-- Settles O12: the lanes are `cast_forward`. -/
theorem nttFwdGivesTheEvaluations : Obligations.NttFwdGivesTheEvaluations := by
  intro rd ra s hc
  refine ⟨_, exec_nttFwd rd ra s, s.wroteRing_complete_setRing rd fun i _ => ⟨?_, mod_q_lt s.pset _⟩⟩
  refine eq_of_cast_eq (forward_lt _ s.pset _ i) (Nat.mod_lt _ (ParamSet.q_pos s.pset)) ?_
  rw [cast_forward hc, State.q, ZMod.natCast_mod]
  push_cast
  refine Finset.sum_congr rfl fun j _ => ?_
  rw [← pow_mul, Nat.mul_comm j]

/-- Settles O13: the lanes are `cast_inverse`. -/
theorem nttInvGivesTheCoefficients : Obligations.NttInvGivesTheCoefficients := by
  intro rd ra s φ hc hφ
  refine ⟨_, exec_nttInv rd ra s, s.wroteRing_complete_setRing rd fun i _ => ⟨?_, mod_q_lt s.pset _⟩⟩
  refine eq_of_cast_eq (inverse_lt _ s.pset _ i) (Nat.mod_lt _ (ParamSet.q_pos s.pset)) ?_
  have hφ' : (s.config.psi s.pset : ZMod s.pset.q) * φ = 1 := by rwa [← Nat.cast_mul, ← mod_eq_one_iff]
  rw [cast_inverse hc s.pset hφ', State.q, ZMod.natCast_mod]
  push_cast
  rfl

/-- Settles O14: the lanes are coefficients already. -/
theorem rearrangePermutesTheCoefficients : Obligations.RearrangePermutesTheCoefficients := fun rd ra s =>
  ⟨_, exec_rearrange rd ra s, s.wroteRing_complete_setRing rd fun _ _ => ⟨rfl, s.coef_lt ra _⟩⟩

end Sys2Proof.Machine

/-! SUPPORT. The butterfly algorithms (41 R159): what each stage does to the halves of a block, and the loop as a sum over each
block. -/

namespace Sys2Proof.Machine

section Butterflies

variable (p : ParamSet) (w : Nat)

theorem cast_butterflyStage_upper {len j : Nat} (hj : j < len) (t : Nat) (a : Nat → Nat) :
    (butterflyStage p w len a (2 * len * t + j) : ZMod p.q) = a (2 * len * t + j) + a (2 * len * t + len + j) := by
  have hmod : (2 * len * t + j) % (2 * len) = j := by rw [Nat.mul_add_mod, Nat.mod_eq_of_lt (by omega)]
  simp only [butterflyStage, hmod]
  rw [if_pos hj, cast_reduceQ, Nat.add_right_comm]
  push_cast
  rfl

theorem cast_butterflyStage_lower {len j : Nat} (hj : j < len) (t : Nat) (a : Nat → Nat) :
    (butterflyStage p w len a (2 * len * t + len + j) : ZMod p.q)
      = (a (2 * len * t + j) - a (2 * len * t + len + j)) * w ^ (j * (p.n / (2 * len))) := by
  have hmod : (2 * len * t + len + j) % (2 * len) = len + j := by
    rw [Nat.add_assoc, Nat.mul_add_mod, Nat.mod_eq_of_lt (by omega)]
  simp only [butterflyStage, hmod]
  rw [if_neg (by omega), cast_reduceQ, Nat.add_sub_cancel_left, Nat.add_right_comm _ len j, Nat.add_sub_cancel]
  push_cast
  rfl

end Butterflies

/-- The step root of a stage: its square is the next stage's, and its power at the half block is -1. -/
theorem stepRoot_sq_and_half {p : ParamSet} {W : ZMod p.q} (hW : W ^ (p.n / 2) = -1) {s : Nat} (hs : s + 1 ≤ p.logN) :
    (W ^ (p.n / (2 * 2 ^ s))) ^ 2 = W ^ (p.n / 2 ^ s) ∧ (W ^ (p.n / (2 * 2 ^ s))) ^ 2 ^ s = -1 := by
  obtain ⟨r, hr⟩ := Nat.exists_eq_add_of_le' hs
  have hn : p.n = 2 ^ r * 2 * 2 ^ s := by rw [ParamSet.n_eq, hr]; ring
  have hstep : p.n / (2 * 2 ^ s) = 2 ^ r := by rw [hn, mul_assoc, Nat.mul_div_cancel _ (by positivity)]
  have hnext : p.n / 2 ^ s = 2 ^ r * 2 := by rw [hn, Nat.mul_div_cancel _ (by positivity)]
  have hhalf : p.n / 2 = 2 ^ r * 2 ^ s := by rw [hn, mul_right_comm, Nat.mul_div_cancel _ (by decide)]
  rw [hstep, hnext, ← pow_mul, ← pow_mul, ← hhalf]
  exact ⟨rfl, hW⟩

/-- After the loop, the entries of each block of 2^stages are its sums against the powers of the stage's step root, in
bit-reversed order. -/
theorem cast_butterflyLoop {p : ParamSet} {w : Nat} (hw : (w : ZMod p.q) ^ (p.n / 2) = -1) {s : Nat} (hs : s ≤ p.logN)
    (a : Nat → Nat) (i : Nat) :
    (butterflyLoop p w s a i : ZMod p.q)
      = ∑ j ∈ Finset.range (2 ^ s),
          (a (2 ^ s * (i / 2 ^ s) + j) : ZMod p.q) * ((w : ZMod p.q) ^ (p.n / 2 ^ s)) ^ (j * bitrev s i) := by
  induction s generalizing a with
  | zero => simp [butterflyLoop, bitrev]
  | succ s ih =>
    obtain ⟨hsquare, hhalf⟩ := stepRoot_sq_and_half hw hs
    have hblock : i / (2 * 2 ^ s) = i / 2 ^ s / 2 := by rw [Nat.mul_comm, Nat.div_div_eq_div_mul]
    rw [butterflyLoop, ih (by omega), ← hsquare, bitrev_succ_top, pow_succ' 2 s, hblock, two_mul (2 ^ s),
      Finset.sum_range_add, ← Finset.sum_add_distrib, ← two_mul]
    refine Finset.sum_congr rfl fun j hj => ?_
    have hjs := Finset.mem_range.1 hj
    have hdiv := Nat.div_add_mod (i / 2 ^ s) 2
    rw [← Nat.add_assoc, Nat.add_mul, pow_add, pow_mul _ (2 ^ s), hhalf, ← pow_mul]
    obtain h | h := Nat.mod_two_eq_zero_or_one (i / 2 ^ s)
    · have hpos : 2 ^ s * (i / 2 ^ s) = 2 * 2 ^ s * (i / 2 ^ s / 2) := by linear_combination 2 ^ s * (h - hdiv)
      have hsign : (-1 : ZMod p.q) ^ (2 * bitrev s i + 0) = 1 := Even.neg_one_pow (by simp)
      rw [h, hpos, cast_butterflyStage_upper p w hjs, hsign]
      ring
    · have hpos : 2 ^ s * (i / 2 ^ s) = 2 * 2 ^ s * (i / 2 ^ s / 2) + 2 ^ s := by linear_combination 2 ^ s * (h - hdiv)
      have hsign : (-1 : ZMod p.q) ^ (2 * bitrev s i + 1) = -1 := Odd.neg_one_pow (by simp)
      rw [h, hpos, cast_butterflyStage_lower p w hjs, hsign]
      ring

/-- The whole loop on N entries: the sums against the powers of its root. -/
theorem cast_butterflyLoop_logN {p : ParamSet} {w : Nat} (hw : (w : ZMod p.q) ^ (p.n / 2) = -1) (a : Nat → Nat) {i : Nat}
    (hi : i < p.n) :
    (butterflyLoop p w p.logN a i : ZMod p.q)
      = ∑ j ∈ Finset.range p.n, (a j : ZMod p.q) * (w : ZMod p.q) ^ (j * bitrev p.logN i) := by
  have hn := ParamSet.n_pos p
  rw [cast_butterflyLoop hw le_rfl, ← ParamSet.n_eq, Nat.div_eq_of_lt hi, Nat.div_self hn, pow_one]
  simp only [Nat.mul_zero, Nat.zero_add]

theorem butterflyLoop_lt (p : ParamSet) (w s : Nat) {a : Nat → Nat} (ha : ∀ i, a i < p.q) (i : Nat) :
    butterflyLoop p w s a i < p.q := by
  induction s generalizing a with
  | zero => exact ha i
  | succ s ih =>
    refine ih fun k => ?_
    rw [butterflyStage]
    split <;> exact reduceQ_lt (ParamSet.q_pos p) _

/-- The loop's root is the square of a 2N-th root (41 R159). -/
theorem sq_pow_half {p : ParamSet} {x : ZMod p.q} (hx : x ^ p.n = -1) : (x ^ 2) ^ (p.n / 2) = -1 := by
  rw [← pow_mul, Nat.mul_div_cancel' (by cases p <;> decide), hx]

theorem forwardBf_eq_forward {c : Config} (h : c.Valid) (p : ParamSet) (a : Nat → Nat) {i : Nat} (hi : i < p.n) :
    forwardBf c p a i = forward c p a i := by
  have := isDomain_zmod p
  have hroot := sq_pow_half (pow_half_order (isPrimitiveRoot_psi h p) (ParamSet.n_pos p))
  refine eq_of_cast_eq (butterflyLoop_lt p _ _ (fun _ => reduceQ_lt (ParamSet.q_pos p) _) i) (forward_lt c p a i) ?_
  rw [forwardBf, cast_butterflyLoop_logN (by rwa [Nat.cast_pow]) _ hi, cast_forward h]
  refine Finset.sum_congr rfl fun j _ => ?_
  rw [cast_reduceQ]
  push_cast
  ring

theorem inverseBf_eq_inverse {c : Config} (h : c.Valid) (p : ParamSet) (b : Nat → Nat) {i : Nat} (hi : i < p.n) :
    inverseBf c p b i = inverse c p b i := by
  have := isDomain_zmod p
  have hroot := sq_pow_half (inv_pow_half_order (isPrimitiveRoot_psi h p) (psi_mul_psiInv h p) (ParamSet.n_pos p))
  refine reduceQ_eq_of_cast (inverse_lt c p b i) ?_
  have hloop := cast_butterflyLoop_logN (w := c.psiInv p ^ 2) (by rwa [Nat.cast_pow]) b hi
  push_cast at hloop ⊢
  rw [cast_inverse h p (psi_mul_psiInv h p), hloop, mul_right_comm, Finset.sum_mul, mul_comm]
  refine congrArg _ (Finset.sum_congr rfl fun j _ => ?_)
  ring

/-- Settles O18: the loop's sums are the closed forms, once the twist and the untwist are multiplied in. -/
theorem butterfliesComputeTheTransforms : Obligations.ButterfliesComputeTheTransforms := fun _ p a hc _ _ hi =>
  ⟨forwardBf_eq_forward hc p a hi, inverseBf_eq_inverse hc p a hi⟩

end Sys2Proof.Machine

/-! SUPPORT. The random-bit stream (42 R182 to R184): throwing away bits that are held shifts the buffer, and an empty buffer is the
stream of its refill. -/

namespace Sys2Proof.Machine

/-! The bits held -/

/-- Held bits are thrown away by a shift; no word is drawn. -/
theorem BitStream.skip_of_le {b : BitStream} {k : Nat} (h : k ≤ b.valid.val) :
    BitStream.skip k b = { b with buf := b.buf >>> k, valid := ⟨b.valid.val - k, by omega⟩ } := by
  induction k with
  | zero => simp
  | succ k ih =>
    have held : (⟨b.valid.val - k, by omega⟩ : Fin 33) ≠ 0 := Fin.ne_of_val_ne (Nat.sub_ne_zero_of_lt h)
    rw [BitStream.skip_succ, ih (Nat.le_of_succ_le h), BitStream.nextBit, BitStream.refill_of_valid held, BitStream.take]
    simp only [BitVec.shiftRight_add, Nat.sub_sub]

theorem BitStream.bitAt_of_lt {b : BitStream} {k : Nat} (h : k < b.valid.val) : b.bitAt k = b.buf.getLsbD k := by
  have held : (⟨b.valid.val - k, by omega⟩ : Fin 33) ≠ 0 := Fin.ne_of_val_ne (Nat.sub_ne_zero_of_lt h)
  rw [BitStream.bitAt, BitStream.skip_of_le h.le, BitStream.nextBit_fst, BitStream.refill_of_valid held]
  simp

/-- Settles O23, by `BitStream.skip_of_le`. -/
theorem noRandomBitIsDiscarded : Obligations.NoRandomBitIsDiscarded := fun b k h => by
  rw [BitStream.skip_of_le h]
  exact ⟨rfl, rfl, BitStream.bitAt_of_lt⟩

/-! The refill -/

theorem BitStream.nextBit_refill (b : BitStream) : b.refill.nextBit = b.nextBit := by
  have held : b.refill.valid ≠ 0 := Fin.ne_of_val_ne b.refill_valid_pos.ne'
  rw [BitStream.nextBit, BitStream.refill_of_valid held, BitStream.nextBit]

theorem BitStream.skip_refill (b : BitStream) (k : Nat) : BitStream.skip (k + 1) b.refill = BitStream.skip (k + 1) b := by
  rw [← BitStream.skip_nextBit, BitStream.nextBit_refill, BitStream.skip_nextBit]

theorem BitStream.bitAt_refill (b : BitStream) (k : Nat) : b.refill.bitAt k = b.bitAt k := by
  cases k with
  | zero => exact congrArg Prod.fst b.nextBit_refill
  | succ k => rw [BitStream.bitAt, BitStream.skip_refill, BitStream.bitAt]

/-- The random port's next word: the first of those ready, else the free word. -/
theorem RngPort.draw_eq (r : RngPort) :
    r.draw = (r.queue.headD (Config.rngWord r.drawn), { queue := r.queue.tail, drawn := r.drawn + 1 }) := by
  unfold RngPort.draw
  cases r.queue <;> rfl

/-- Settles O22: the refill holds the 32 bits of one word, and held bits come in order. -/
theorem wordBitsComeLeastSignificantFirst : Obligations.WordBitsComeLeastSignificantFirst := by
  intro b hempty
  have hrefill := BitStream.refill_of_empty hempty
  have hvalid : b.refill.valid.val = 32 := by rw [hrefill]; rfl
  obtain ⟨hrng, hleft, -⟩ := noRandomBitIsDiscarded b.refill 32 hvalid.ge
  rw [BitStream.skip_refill] at hrng hleft
  refine ⟨b.refill.buf, fun k hk => ?_, Fin.ext ?_, ?_, ?_⟩
  · rw [← BitStream.bitAt_refill, BitStream.bitAt_of_lt (hvalid ▸ hk)]
  · rw [hleft, hvalid]; rfl
  · rw [hrng, hrefill, RngPort.draw_eq]
  · rw [hrefill, RngPort.draw_eq]

end Sys2Proof.Machine

/-! SUPPORT. The walk (42 R185, R187, R189) by the first column with a hit, and the distance of a walk without a hit: it is never
negative, and below what the weights of the columns done leave of 1. -/

namespace Sys2Proof.Machine

/-- What the walk from column `c` on answers: the hit of the first column that has one, or nothing after the last column. -/
theorem walkFrom_cases (m : KyMatrix) (b : BitStream) (left c : Nat) :
    (∃ k r, c ≤ k ∧ k < c + left ∧ ColumnHit m b k r ∧ (∀ c', c ≤ c' → c' < k → ∀ r', ¬ ColumnHit m b c' r')
      ∧ walkFrom m left c (walkDistance m b c) (BitStream.skip c b) = (some r, BitStream.skip (k + 1) b))
    ∨ ((∀ c', c ≤ c' → c' < c + left → ∀ r, ¬ ColumnHit m b c' r)
      ∧ walkFrom m left c (walkDistance m b c) (BitStream.skip c b) = (none, BitStream.skip (c + left) b)) := by
  induction left generalizing c with
  | zero => exact .inr ⟨fun c' _ _ => by omega, rfl⟩
  | succ left ih =>
    rw [walkFrom_succ, BitStream.nextBit_skip_fst, ← BitStream.skip_succ]
    obtain ⟨r, hscan, hit⟩ | ⟨hscan, miss⟩ := scanRows_column m b c <;> rw [hscan]
    · exact .inl ⟨c, r, le_rfl, by omega, hit, fun c' _ _ => by omega, rfl⟩
    · have missFrom {k : Nat} (h : ∀ c', c + 1 ≤ c' → c' < k → ∀ r, ¬ ColumnHit m b c' r) (c' : Nat) (hc : c ≤ c')
          (hk : c' < k) : ∀ r, ¬ ColumnHit m b c' r := by
        obtain rfl | hlt := hc.eq_or_lt
        · exact miss
        · exact h c' hlt hk
      obtain ⟨k, r, hck, hk, hit, first, hwalk⟩ | ⟨missRest, hwalk⟩ := ih (c + 1)
      · exact .inl ⟨k, r, by omega, by omega, hit, missFrom first, hwalk⟩
      · rw [Nat.add_right_comm] at missRest hwalk
        exact .inr ⟨missFrom missRest, hwalk⟩

theorem kyWalk_cases (m : KyMatrix) (b : BitStream) :
    (∃ c r, c < m.cols ∧ ColumnHit m b c r ∧ (∀ c' < c, ∀ r', ¬ ColumnHit m b c' r')
      ∧ kyWalk m b = (some r, BitStream.skip (c + 1) b))
    ∨ ((∀ c < m.cols, ∀ r, ¬ ColumnHit m b c r) ∧ kyWalk m b = (none, BitStream.skip m.cols b)) := by
  obtain ⟨c, r, -, hc, hit, first, hwalk⟩ | ⟨miss, hwalk⟩ := walkFrom_cases m b m.cols 0
  · exact .inl ⟨c, r, by omega, hit, fun c' => first c' c'.zero_le, hwalk⟩
  · rw [Nat.zero_add] at miss hwalk
    exact .inr ⟨fun c => miss c c.zero_le, hwalk⟩

/-- Settles O24, by `kyWalk_cases`: the first hit is one only. -/
theorem sampleBitCost : Obligations.SampleBitCost := by
  refine fun q m b => ⟨fun c r hc hit first => ?_, fun miss => ?_⟩
  · obtain ⟨c', r', -, hit', first', hwalk⟩ | ⟨miss, -⟩ := kyWalk_cases m b
    · obtain rfl : c' = c := le_antisymm (not_lt.1 fun h => first' c h r hit) (not_lt.1 fun h => first c' h r' hit')
      obtain rfl := hit.unique hit'
      exact ⟨hwalk, _, by rw [sampleOne_of_hit hwalk, BitStream.skip_succ b (c' + 1)]⟩
    · exact absurd hit (miss c hc r)
  · obtain ⟨c, r, hc, hit, -⟩ | ⟨-, hwalk⟩ := kyWalk_cases m b
    · exact absurd hit (miss c hc r)
    · exact ⟨hwalk, sampleOne_of_exhausted hwalk⟩

/-! The distance of a walk without a hit -/

/-- A column passed without a hit leaves a distance that is not negative. -/
theorem scanRows_miss_nonneg {m : KyMatrix} {c n : Nat} {d d' : Int} (hd : 0 ≤ d) (h : scanRows m c n d = .miss d') :
    0 ≤ d' := by
  induction n generalizing d with
  | zero => exact Scan.miss.inj h ▸ hd
  | succ n ih =>
    have hbit := Bool.toNat_le (m.bit n c)
    simp only [scanRows] at h
    split at h
    · cases h
    · exact ih (by omega) h

theorem walkDistance_nonneg {m : KyMatrix} {b : BitStream} {c : Nat} (h : ∀ c' < c, ∀ r, ¬ ColumnHit m b c' r) :
    0 ≤ walkDistance m b c := by
  induction c with
  | zero => exact le_rfl
  | succ c ih =>
    obtain ⟨r, -, hit⟩ | ⟨hscan, -⟩ := scanRows_column m b c
    · exact absurd hit (h c c.lt_succ_self r)
    · have hd := ih fun c' hc => h c' (hc.trans c.lt_succ_self)
      exact scanRows_miss_nonneg (by omega) hscan

/-- The weight, column by column (42 R181). -/
theorem KyMatrix.weight_eq (m : KyMatrix) :
    m.weight = ∑ c ∈ Finset.range m.cols, onesDownTo m c 0 * 2 ^ (m.cols - 1 - c) := by
  simp only [KyMatrix.weight, sumTo_eq_sum, onesDownTo, Finset.sum_mul, Finset.range_eq_Ico]
  exact Finset.sum_comm

/-- One more column doubles the scale of the columns before it. -/
theorem sum_scaled_succ (f : Nat → Nat) (c : Nat) :
    ∑ k ∈ Finset.range (c + 1), f k * 2 ^ (c + 1 - 1 - k) = 2 * ∑ k ∈ Finset.range c, f k * 2 ^ (c - 1 - k) + f c := by
  have double : ∀ k ∈ Finset.range c, f k * 2 ^ (c - k) = 2 * (f k * 2 ^ (c - 1 - k)) := fun k hk => by
    have hkc := Finset.mem_range.1 hk
    rw [show c - k = c - 1 - k + 1 by omega, pow_succ]
    ring
  rw [Nat.add_sub_cancel, Finset.sum_range_succ, Finset.sum_congr rfl double, Finset.mul_sum, Nat.sub_self, pow_zero, mul_one]

/-- The distance before column `c` is below what the weights of the columns before it leave of 1, scaled by 2^c: a bit is at
most 1. -/
theorem walkDistance_add_ones_lt (m : KyMatrix) (b : BitStream) (c : Nat) :
    walkDistance m b c + (∑ k ∈ Finset.range c, onesDownTo m k 0 * 2 ^ (c - 1 - k) : Nat) < 2 ^ c := by
  induction c with
  | zero => simp
  | succ c ih =>
    have hbit := Bool.toNat_le (b.bitAt c)
    rw [sum_scaled_succ, walkDistance_succ, distanceAfter, pow_succ]
    omega

/-- Settles O26: a walk without a hit would leave a distance that is both not negative and below 0. -/
theorem exactMatrixIsNeverExhausted : Obligations.ExactMatrixIsNeverExhausted := by
  intro m b hweight
  obtain ⟨c, r, -, hit, -, hwalk⟩ | ⟨miss, -⟩ := kyWalk_cases m b
  · exact ⟨r, _, hwalk, hit.row⟩
  · have hlow := walkDistance_nonneg miss
    have hhigh := walkDistance_add_ones_lt m b m.cols
    rw [← KyMatrix.weight_eq, hweight] at hhigh
    push_cast at hhigh
    omega

end Sys2Proof.Machine

/-! SUPPORT. Samples (42 R186, R191) and the sampling commands (R190, R191). -/

namespace Sys2Proof.Machine

/-- A sign bit 1 folds the magnitude m to q - m, and 0 to 0 (42 R186). -/
theorem reduceQ_sub_of_lt {q r : Nat} (h : r < q) : reduceQ q ((q : Int) - r) = if r = 0 then 0 else q - r := by
  have hq : 0 < q := Nat.zero_lt_of_lt h
  rw [← Nat.cast_sub h.le, reduceQ_natCast hq]
  split
  · rename_i hzero
    rw [hzero, Nat.sub_zero, Nat.mod_self]
  · exact Nat.mod_eq_of_lt (by omega)

/-- Settles O25: a hit is at a row below q. -/
theorem signFold : Obligations.SignFold := by
  refine fun p m b hm => ⟨fun r b' hwalk => ?_, fun b' hwalk => sampleOne_of_exhausted hwalk⟩
  have hsample := sampleOne_of_hit (q := p.q) hwalk
  refine ⟨_, hsample, sampleOne_lt hm (congrArg Prod.fst hsample), ?_⟩
  obtain ⟨-, -, -, hrows, -⟩ := hm
  rw [reduceQ_sub_of_lt ((walkFrom_hit hwalk).trans_le hrows)]
  by_cases h0 : r = 0 <;> simp [h0]

/-! Samples in order -/

/-- The bits that so many samples leave. -/
def BitStream.afterSamples (q : Nat) (m : KyMatrix) (b : BitStream) (k : Nat) : BitStream :=
  (fun b' => (sampleOne q m b').2)^[k] b

/-- The first sample first. -/
theorem BitStream.afterSamples_sampleOne (q : Nat) (m : KyMatrix) (b : BitStream) (k : Nat) :
    (sampleOne q m b).2.afterSamples q m k = b.afterSamples q m (k + 1) := rfl

/-- The last sample last: each is drawn from the bits the ones before it left. -/
theorem BitStream.sampleOne_afterSamples (q : Nat) (m : KyMatrix) (b : BitStream) (k : Nat) :
    sampleOne q m (b.afterSamples q m k) = ((sampleOne q m (b.afterSamples q m k)).1, b.afterSamples q m (k + 1)) :=
  Prod.ext rfl (Function.iterate_succ_apply' (fun b' => (sampleOne q m b').2) k b).symm

/-- So many samples, or those before the first exhausted walk. -/
theorem sampleMany_cases (q : Nat) (m : KyMatrix) (n : Nat) (b : BitStream) :
    (∃ vs, sampleMany q m n b = (some vs, b.afterSamples q m n) ∧ vs.length = n
      ∧ ∀ i < n, (sampleOne q m (b.afterSamples q m i)).1 = some (vs.getD i 0))
    ∨ (∃ k < n, sampleMany q m n b = (none, b.afterSamples q m (k + 1))
      ∧ (∀ i < k, ∃ v, (sampleOne q m (b.afterSamples q m i)).1 = some v)
      ∧ (sampleOne q m (b.afterSamples q m k)).1 = none) := by
  induction n generalizing b with
  | zero => exact .inl ⟨[], rfl, rfl, fun i hi => absurd hi i.not_lt_zero⟩
  | succ n ih =>
    obtain ⟨hnone, hmany⟩ | ⟨v, hv, hmany⟩ := sampleMany_succ q m n b
    · exact .inr ⟨0, n.succ_pos, hmany, fun i hi => absurd hi i.not_lt_zero, hnone⟩
    · have hcases := ih (sampleOne q m b).2
      simp only [BitStream.afterSamples_sampleOne] at hcases
      obtain ⟨vs, hrest, hlen, hvs⟩ | ⟨k, hk, hrest, hvs, hnone⟩ := hcases <;> rw [hmany, hrest]
      · refine .inl ⟨v :: vs, rfl, congrArg (· + 1) hlen, fun i hi => ?_⟩
        cases i with
        | zero => exact hv
        | succ i => exact hvs i (by omega)
      · refine .inr ⟨k + 1, by omega, rfl, fun i hi => ?_, hnone⟩
        cases i with
        | zero => exact ⟨v, hv⟩
        | succ i => exact hvs i (by omega)

/-- Settles O27, by `sampleMany_cases` along `BitStream.afterSamples`. -/
theorem samplesAreDrawnInOrder : Obligations.SamplesAreDrawnInOrder := by
  intro q m n b
  have hone := b.sampleOne_afterSamples q m
  obtain ⟨vs, hmany, hlen, hvs⟩ | ⟨k, hk, hmany, hvs, hnone⟩ := sampleMany_cases q m n b
  · exact .inl ⟨vs, b.afterSamples q m, hmany, hlen, rfl, fun i hi => by rw [hone, hvs i hi]⟩
  · refine .inr ⟨k, b.afterSamples q m, hk, hmany, rfl, fun i hi => ?_, by rw [hone, hnone]⟩
    obtain ⟨v, hv⟩ := hvs i hi
    exact ⟨v, by rw [hone, hv]⟩

/-! The sampling commands -/

theorem exec_sample1 (s : State) : exec .sample1 s = .next (s.finishSample1 (sampleOne s.q (s.config.ky s.pset) s.bits)) := rfl

theorem exec_sample (rd : PReg) (s : State) :
    exec (.sample rd) s = .next (s.finishSample rd (sampleMany s.q (s.config.ky s.pset) s.n s.bits)) := rfl

/-- What either command leaves of an exhausted walk (42 R187). -/
theorem State.exhausted_complete_raise (s : State) (b : BitStream) :
    s.Exhausted (State.complete (State.raise .kyExhausted (s.withBits b))) b where
  polys k i := by simp
  result := by simp
  bits := by simp
  busy := rfl
  done := rfl
  err := State.raise_err .kyExhausted (s.withBits b)
  setup := s.sameSetup_finishSample1 (none, b)

/-- Settles O28, by the sampler's answer. -/
theorem sample1WritesResultOrFails : Obligations.Sample1WritesResultOrFails := by
  refine fun s hc => ⟨_, exec_sample1 s, ?_⟩
  rcases hsample : sampleOne s.q (s.config.ky s.pset) s.bits with ⟨_ | v, b⟩
  · exact .inr ⟨b, rfl, s.exhausted_complete_raise b⟩
  · have hv : v < s.q := sampleOne_lt (kyOk_of_valid hc s.pset) (congrArg Prod.fst hsample)
    have hfit : v < 2 ^ 32 := (hv.trans (ParamSet.q_lt s.pset)).trans (by decide)
    exact .inl ⟨v, b, rfl, (BitVec.toNat_ofNat v 32).trans (Nat.mod_eq_of_lt hfit), hv, rfl, fun _ _ => rfl, ⟨rfl, rfl, rfl⟩,
      s.sameSetup_finishSample1 (some v, b)⟩

theorem sampleMany_getD_lt {p : ParamSet} {m : KyMatrix} (hm : p.KyOk m) {k : Nat} {b : BitStream} {vs : List Nat}
    (h : (sampleMany p.q m k b).1 = some vs) (i : Nat) : vs.getD i 0 < p.q := by
  obtain hi | hi := lt_or_ge i vs.length
  · rw [List.getD_eq_getElem _ _ hi]
    exact sampleMany_lt hm h _ (List.getElem_mem hi)
  · rw [List.getD_eq_default _ _ hi]
    exact ParamSet.q_pos p

/-- Settles O29, by the sampler's answer: on success the command writes a ring element after the bits are taken. -/
theorem sampleWritesRingOrFails : Obligations.SampleWritesRingOrFails := by
  refine fun rd s hc => ⟨_, exec_sample rd s, ?_⟩
  rcases hsample : sampleMany s.q (s.config.ky s.pset) s.n s.bits with ⟨_ | vs, b⟩
  · exact .inr ⟨b, rfl, s.exhausted_complete_raise b⟩
  · have hvs (i : Nat) : vs.getD i 0 < s.q :=
      sampleMany_getD_lt (kyOk_of_valid hc s.pset) (congrArg Prod.fst hsample) i
    obtain ⟨lanes, above, others, result, bits, flags, -⟩ := (s.withBits b).wroteRing_complete_setRing rd
      (f := fun i => vs.getD i 0) (g := fun i => vs.getD i 0) fun i _ => ⟨rfl, (hvs i).trans (ParamSet.q_lt s.pset)⟩
    exact .inl ⟨vs, b, rfl, bits, fun i hi => ⟨lanes i hi, (lanes i hi).trans_lt (hvs i)⟩, above, others, result,
      ⟨flags.busy, flags.done, flags.err⟩, s.sameSetup_finishSample rd (some vs, b)⟩

end Sys2Proof.Machine

/-! SUPPORT. The pointwise commands (43 R220 to R223): each is `State.lanewise` at one exact integer operation, so its lanes are
said once, as remainders of that operation. -/

namespace Sys2Proof.Machine

/-- A lane-wise command writes the ring element of the remainders mod q (43 R223). -/
theorem State.wroteRing_lanewise (s : State) (rd ra rb : PReg) {f : Int → Int → Int} {g : Nat → Nat}
    (hg : ∀ i, (g i : Int) = f (s.coef ra i) (s.coef rb i) % s.q) : s.WroteRing (s.lanewise rd ra rb f) rd g := by
  have hlane (i : Nat) : reduceQ s.q (f (s.coef ra i) (s.coef rb i)) = g i :=
    Nat.cast_injective (R := Int) ((reduceQ_eq_emod (ParamSet.q_pos s.pset) _).trans (hg i).symm)
  refine s.wroteRing_complete_setRing rd fun i _ => ⟨hlane i, ?_⟩
  rw [← hlane i]
  exact (reduceQ_lt (ParamSet.q_pos s.pset) _).trans (ParamSet.q_lt s.pset)

theorem exec_padd (rd ra rb : PReg) (s : State) :
    exec (.padd rd ra rb) s = .next (s.lanewise rd ra rb fun a b => a + b) := rfl

theorem exec_psub (rd ra rb : PReg) (s : State) :
    exec (.psub rd ra rb) s = .next (s.lanewise rd ra rb fun a b => a - b) := rfl

theorem exec_pmul (rd ra rb : PReg) (s : State) :
    exec (.pmul rd ra rb) s = .next (s.lanewise rd ra rb fun a b => a * b) := rfl

/-- Settles O19: the sum of coefficients is a natural number, and so is its remainder. -/
theorem paddAddsLanes : Obligations.PaddAddsLanes := fun rd ra rb s =>
  ⟨_, exec_padd rd ra rb s, s.wroteRing_lanewise rd ra rb fun i => by push_cast; rfl⟩

/-- Settles O20: the difference may be negative, but its remainder is not. -/
theorem psubSubtractsLanes : Obligations.PsubSubtractsLanes := fun rd ra rb s => by
  have hq : (s.q : Int) ≠ 0 := Nat.cast_ne_zero.2 (ParamSet.q_pos s.pset).ne'
  exact ⟨_, exec_psub rd ra rb s, s.wroteRing_lanewise rd ra rb fun i => Int.toNat_of_nonneg (Int.emod_nonneg _ hq)⟩

/-- Settles O21: the product of coefficients is a natural number, and so is its remainder. -/
theorem pmulMultipliesLanes : Obligations.PmulMultipliesLanes := fun rd ra rb s =>
  ⟨_, exec_pmul rd ra rb s, s.wroteRing_lanewise rd ra rb fun i => by push_cast; rfl⟩

end Sys2Proof.Machine

/-! SUPPORT. Writes dropped while busy (60_exceptions R243), the error latch (R244), and the turns that only pass (R257). -/

namespace Sys2Proof.Machine

/-! Writes while busy (20_memory R80) -/

/-- The registers whose writes are dropped while a command is in flight (60_exceptions R243). -/
def Reg.DroppedWhileBusy (r : Reg) : Prop :=
  r = .cfg ∨ r = .cmd ∨ r = .xLo ∨ r = .xHi ∨ ∃ k i, r = .poly k i

theorem State.unlessBusy_of_busy {s : State} (h : s.busy = true) (t : State) : s.unlessBusy t = s.raise .busy :=
  if_pos h

theorem writeReg_dropped {s : State} (hbusy : s.busy = true) {r : Reg} (h : r.DroppedWhileBusy) (w : Word) :
    writeReg r w s = s.raise .busy := by
  obtain rfl | rfl | rfl | rfl | ⟨k, i, rfl⟩ := h <;> exact State.unlessBusy_of_busy hbusy _

/-- The offsets of these registers (10_state R33, R46). -/
theorem droppedWhileBusy_regAt {off : Nat}
    (h : off = 0x004 ∨ off = 0x010 ∨ off = 0x014 ∨ off = 0x018 ∨ 0x1000 ≤ off ∧ off < 0x5000) :
    (regAt off).DroppedWhileBusy := by
  obtain rfl | rfl | rfl | rfl | hwindow := h
  · exact .inl rfl
  · exact .inr (.inl rfl)
  · exact .inr (.inr (.inl rfl))
  · exact .inr (.inr (.inr (.inl rfl)))
  · exact .inr (.inr (.inr (.inr ⟨_, _, regAt_poly hwindow⟩)))

/-- Settles O45: the map leads to a register whose write is dropped, and the drop is the latch of BUSY. -/
theorem busyDropsWrites : Obligations.BusyDropsWrites := by
  intro s off w hbusy hal hoff
  have hdropped : (regAt off).DroppedWhileBusy := droppedWhileBusy_regAt (by omega)
  rw [busWrite_word s w (by omega) hal, writeReg_dropped hbusy hdropped, State.raise_eq]

/-! The latch (60_exceptions R244) -/

theorem State.raise_of_clear {s : State} (h : s.err = .none) (c : ErrCode) : s.raise c = { s with err := c } := if_pos h

theorem State.raise_of_latched {s : State} (h : s.err ≠ .none) (c : ErrCode) : s.raise c = s := if_neg h

/-- Settles O47: the two branches of the latch, and what a rejection, a STATUS write and a reset leave in ERR. -/
theorem errorLatch : Obligations.ErrorLatch := by
  intro s c w
  refine ⟨fun hclear => State.raise_of_clear hclear c, fun hlatched => State.raise_of_latched hlatched c,
    fun hlatched => ⟨?_, State.reject_done c s⟩, fun hbit => ?_, State.resetBlock_err s⟩
  · rw [State.reject_err, if_neg hlatched]
  · rw [State.clearStatus_err, if_pos hbit]

/-! Turns with nothing to do (60_exceptions R257) -/

theorem engineTurn_of_idle {s : State} (h : s.busy = false) : engineTurn s = .next s := by
  simp [engineTurn, h]

theorem hostTurn_of_nil {s : State} (h : s.host = []) : hostTurn s = .next s := by
  simp [hostTurn, h]

/-- Settles O59: taking the turn off the schedule keeps BUSY and the host's transactions, so the turn passes. -/
theorem idleTurnsChangeNothing : Obligations.IdleTurnsChangeNothing := by
  rintro s (⟨hagent, hidle⟩ | ⟨hagent, hnil⟩)
  · rw [step_eq_takeTurn, hagent]
    exact engineTurn_of_idle ((State.afterTurn_busy s).trans hidle)
  · rw [step_eq_takeTurn, hagent]
    exact hostTurn_of_nil ((State.afterTurn_host s).trans hnil)

end Sys2Proof.Machine

/-! SUPPORT. A reset whatever is in flight (70 R270), and what the host can change during a command (R275). -/

namespace Sys2Proof.Machine

/-- Settles O49: the reset turn leaves the block of `State.resetBlock`, whose coefficients are `State.coef_resetBlock`. -/
theorem resetClearsTheBlock : Obligations.ResetClearsTheBlock := by
  intro s hagent
  have hstep : step s = .next s.afterTurn.resetBlock := by rw [step_eq_takeTurn, hagent, takeTurn]
  exact ⟨_, hstep, rfl, rfl, rfl, rfl, rfl, rfl, rfl, rfl, rfl, s.afterTurn.coef_resetBlock, rfl, rfl, rfl, rfl⟩

/-- A word write while busy reaches only DONE, ERR and the interrupt enable, and sets no DONE (20_memory R80). -/
theorem WriteEffect.of_busy {r : Reg} {w : Word} {s t : State} (h : WriteEffect r w s t) (hbusy : s.busy = true) :
    ∃ done err irqEn, t = { s with done := done, err := err, irqEn := irqEn } ∧ (done = true → s.done = true) := by
  cases h with
  | ignored => exact ⟨s.done, s.err, s.irqEn, rfl, id⟩
  | raised c => exact ⟨s.done, _, s.irqEn, State.raise_eq c s, id⟩
  | control => exact ⟨s.done, s.err, w.getLsbD 0, rfl, id⟩
  | cleared => exact ⟨_, _, s.irqEn, rfl, by split <;> simp⟩
  | rejected _ idle | accepted _ idle | configured _ _ idle | storedLo idle | storedHi idle | coefficient _ _ idle =>
    exact absurd hbusy (by simp [idle])

/-- Settles O55: a HOST's turn ends in a word write, by `WriteEffect.of_busy`, or changes the environment only. -/
theorem busyFreezesTheInputs : Obligations.BusyFreezesTheInputs := by
  intro s t hhost hbusy hstep
  obtain ⟨hreset, -⟩ | ⟨hengine, -⟩ | ⟨-, a, z, v, rest, r, -, -, hwrite⟩ | ⟨n, host, reads, rfl⟩ := step_block_cases hstep
  · exact absurd (hhost.symm.trans hreset) (by decide)
  · exact absurd (hhost.symm.trans hengine) (by decide)
  · obtain ⟨done, err, irqEn, ht, hdone⟩ := (writeReg_effect r v (s.takeOp rest)).of_busy hbusy
    obtain rfl := hwrite.trans ht
    exact ⟨hbusy, rfl, rfl, rfl, rfl, rfl, rfl, rfl, rfl, hdone⟩
  · exact ⟨hbusy, rfl, rfl, rfl, rfl, rfl, rfl, rfl, rfl, id⟩

end Sys2Proof.Machine
